-- ==== Sys2Proof/Word.lean ====
section
/-! DEFINITION. The word types of the block: bytes, 16-bit words, register numbers and byte offsets in register space
(spec 00_scope.md R5, R9; 10_state.md R21, R25). Arithmetic on each type wraps at its width (R9, R27, R47). -/

namespace Sys2Proof

/-- An 8-bit value (00_scope.md R5, byte width 8). -/
abbrev Byte := BitVec 8

/-- A 16-bit value: a word register, the instruction pointer or a memory address (00_scope.md R5). -/
abbrev Word := BitVec 16

/-- A register number, a 3-bit field of an encoding (10_state.md R21). -/
abbrev RegNum := BitVec 3

/-- A byte offset in register space, 0..15, wrapping modulo 16 (10_state.md R25). -/
abbrev RegOff := BitVec 4

/-- The register numbers by their names (10_state.md R22). -/
abbrev RegNum.ax : RegNum := 0#3
abbrev RegNum.cx : RegNum := 1#3
abbrev RegNum.dx : RegNum := 2#3
abbrev RegNum.bx : RegNum := 3#3
abbrev RegNum.sp : RegNum := 4#3
abbrev RegNum.bp : RegNum := 5#3
abbrev RegNum.si : RegNum := 6#3
abbrev RegNum.di : RegNum := 7#3

end Sys2Proof
end

