-- ==== Sys2Proof/Config.lean ====
section
/-! DEFINITION. What the spec leaves to an implementation (00_scope.md R6), and the model's one free value. The parameters
`P_INCDEC_CF` and `P_STACK_WRAP` are carried by `State.params`, so that a statement about every state holds for every value
of them; `P_RESET_GPR` is the argument of `State.resetWith`; `P_DISPLAY_CHAR` is the argument of `State.completionOutput`. -/

namespace Sys2Proof.Config

/-- `P_INCDEC_CF` (00_scope.md R6, 42_incdec.md R150): whether INC and DEC write CF or keep it. -/
inductive IncDecCf where
  /-- CF is written as ADD/SUB with 1 would write it (the spec's default). -/
  | recompute
  /-- CF is unchanged by INC and DEC. -/
  | preserve
deriving DecidableEq, Repr

/-- `P_STACK_WRAP` (00_scope.md R6, 43_stack.md R162): what a push or pop that would carry SP across 0x0000/0xFFFF does. -/
inductive StackWrap where
  /-- The instruction raises `StackWrap` (the spec's default). -/
  | fault
  /-- SP wraps modulo 2^16 and nothing is raised. -/
  | wrap
deriving DecidableEq, Repr

/-- The two parameters an instruction's effect depends on (00_scope.md R6). -/
structure Params where
  incDecCf  : IncDecCf
  stackWrap : StackWrap
deriving DecidableEq, Repr

/-- The defaults the spec gives both parameters (00_scope.md R6). -/
def Params.default : Params := { incDecCf := .recompute, stackWrap := .fault }

/-- `P_RESET_GPR` (00_scope.md R6, 10_state.md R34): a reset value for each of the seven registers the spec gives none. -/
structure ResetGpr where
  ax : Word
  cx : Word
  dx : Word
  bx : Word
  bp : Word
  si : Word
  di : Word
deriving DecidableEq, Repr

/-- DESIGN CHOICE (log entry 1, unsafe): the value of `P_RESET_GPR` that `State.reset` uses. The spec states none and says
that a model must not assume zero (10_state.md R34), so every statement about reset quantifies over `ResetGpr` instead. -/
def ResetGpr.zero : ResetGpr := { ax := 0, cx := 0, dx := 0, bx := 0, bp := 0, si := 0, di := 0 }

/-- FREE VALUE (log entry 2, safe): the value of ip after a decode abort or a stack fault, which the spec leaves
unspecified (60_exceptions.md R212, R213). It has no body; its argument is the number of the draw (`State.draws`). -/
opaque freeIp : Nat → Word

end Sys2Proof.Config
end

