-- ==== Sys2Proof/Syntax.lean ====
section
/-! DEFINITION. The instructions as data: one constructor per row of spec/opcode_table.json, with the operands the row's
encoding carries (30_encoding.md R63 to R69). -/

namespace Sys2Proof

/-- The eight ALU operations, a closed set selected by a 3-bit code (40_alu.md R100; 30_encoding.md R79). -/
inductive AluOp where
  | add | or | adc | sbb | and | sub | xor | cmp
deriving DecidableEq, Repr

/-- What the `mode` and `rm` fields of a ModR/M byte select, with its displacement (30_encoding.md R64, R65).
The `reg` field is not part of it: each instruction uses `reg` in its own way (R66). -/
inductive RM where
  /-- mode 11: the register `rm`, at the instruction's width. -/
  | reg (r : RegNum)
  /-- mode 00 rm 001: `[BX+DI]`. -/
  | bxDi
  /-- mode 00 rm 110: `[disp16]`. -/
  | direct (disp : Word)
  /-- mode 00 rm 111: `[BX]`. -/
  | bx
  /-- mode 01 rm 011: `[BP+DI+d8]`, the displacement sign-extended when the address is formed. -/
  | bpDiDisp (disp : Byte)
  /-- mode 10 rm 101: `[DI+d16]`. -/
  | diDisp (disp : Word)
  /-- mode 10 rm 111: `[BX+d16]`. -/
  | bxDisp (disp : Word)
  /-- One of the 18 undefined (mode, rm) pairs (30_encoding.md R70): the instruction raises `DecodeAbort`. -/
  | undefined (mode : BitVec 2) (rm : BitVec 3)
deriving DecidableEq, Repr

/-- The instruction set. `Eb`/`Ev` is the r/m operand of 8/16 bits (an `RM`), `Gb`/`Gv` the `reg` register of 8/16 bits,
`Ib`/`Iw`/`SIb` an imm8/imm16/sign-extended imm8 (30_encoding.md R68, R69). Constructors stand in the table's order. -/
inductive Instr where
  | addEbGb (dst : RM) (src : RegNum)
  | addEvGv (dst : RM) (src : RegNum)
  | addGbEb (dst : RegNum) (src : RM)
  | addGvEv (dst : RegNum) (src : RM)
  | orEbGb (dst : RM) (src : RegNum)
  | orEvGv (dst : RM) (src : RegNum)
  | orGbEb (dst : RegNum) (src : RM)
  | orGvEv (dst : RegNum) (src : RM)
  | adcEbGb (dst : RM) (src : RegNum)
  | adcEvGv (dst : RM) (src : RegNum)
  | adcGbEb (dst : RegNum) (src : RM)
  | adcGvEv (dst : RegNum) (src : RM)
  | sbbEbGb (dst : RM) (src : RegNum)
  | sbbEvGv (dst : RM) (src : RegNum)
  | sbbGbEb (dst : RegNum) (src : RM)
  | sbbGvEv (dst : RegNum) (src : RM)
  | andEbGb (dst : RM) (src : RegNum)
  | andEvGv (dst : RM) (src : RegNum)
  | andGbEb (dst : RegNum) (src : RM)
  | andGvEv (dst : RegNum) (src : RM)
  | subEbGb (dst : RM) (src : RegNum)
  | subEvGv (dst : RM) (src : RegNum)
  | subGbEb (dst : RegNum) (src : RM)
  | subGvEv (dst : RegNum) (src : RM)
  | xorEbGb (dst : RM) (src : RegNum)
  | xorEvGv (dst : RM) (src : RegNum)
  | xorGbEb (dst : RegNum) (src : RM)
  | xorGvEv (dst : RegNum) (src : RM)
  | cmpEbGb (dst : RM) (src : RegNum)
  | cmpEvGv (dst : RM) (src : RegNum)
  | cmpGbEb (dst : RegNum) (src : RM)
  | cmpGvEv (dst : RegNum) (src : RM)
  | addEbIb (dst : RM) (imm : Byte)
  | orEbIb (dst : RM) (imm : Byte)
  | adcEbIb (dst : RM) (imm : Byte)
  | sbbEbIb (dst : RM) (imm : Byte)
  | andEbIb (dst : RM) (imm : Byte)
  | subEbIb (dst : RM) (imm : Byte)
  | xorEbIb (dst : RM) (imm : Byte)
  | cmpEbIb (dst : RM) (imm : Byte)
  | addEvIw (dst : RM) (imm : Word)
  | orEvIw (dst : RM) (imm : Word)
  | adcEvIw (dst : RM) (imm : Word)
  | sbbEvIw (dst : RM) (imm : Word)
  | andEvIw (dst : RM) (imm : Word)
  | subEvIw (dst : RM) (imm : Word)
  | xorEvIw (dst : RM) (imm : Word)
  | cmpEvIw (dst : RM) (imm : Word)
  | addEvSIb (dst : RM) (imm : Byte)
  | orEvSIb (dst : RM) (imm : Byte)
  | adcEvSIb (dst : RM) (imm : Byte)
  | sbbEvSIb (dst : RM) (imm : Byte)
  | andEvSIb (dst : RM) (imm : Byte)
  | subEvSIb (dst : RM) (imm : Byte)
  | xorEvSIb (dst : RM) (imm : Byte)
  | cmpEvSIb (dst : RM) (imm : Byte)
  | incR16 (r : RegNum)
  | decR16 (r : RegNum)
  | pushR16 (r : RegNum)
  | popR16 (r : RegNum)
  | movEbGb (dst : RM) (src : RegNum)
  | movEvGv (dst : RM) (src : RegNum)
  | movGbEb (dst : RegNum) (src : RM)
  | movGvEv (dst : RegNum) (src : RM)
  | movR8Ib (r : RegNum) (imm : Byte)
  | movR16Iw (r : RegNum) (imm : Word)
  | movEbIb (dst : RM) (imm : Byte)
  | movEvIw (dst : RM) (imm : Word)
  | xchgEbGb (dst : RM) (src : RegNum)
  | xchgAxCx
  | xchgAxDx
  | xchgAxBx
  | xchgAxSp
  | xchgAxBp
  | xchgAxSi
  | xchgAxDi
  | incEb (dst : RM)
  | decEb (dst : RM)
  | jbRel8 (rel : Byte)
  | jzRel8 (rel : Byte)
  | jnzRel8 (rel : Byte)
  | jbeRel8 (rel : Byte)
  | jaRel8 (rel : Byte)
  | jnsRel8 (rel : Byte)
  | jmpRel8 (rel : Byte)
  | callRel16 (rel : Word)
  | ret
  | nop
  | stc
  | hlt
deriving DecidableEq, Repr

end Sys2Proof
end

