-- ==== Sys2Proof/WellFormed.lean ====
section
/-! DEFINITION. Which terms of `Instr` stand for instructions the encoding has. Two things can be wrong with a term: an
`undefined` operand that names a defined (mode, rm) pair, and an immediate on an operand whose resolution aborts before the
immediate is fetched. -/

namespace Sys2Proof

/-- The (mode, rm) pairs the operand resolver defines (30_encoding.md R64): every mode 11 pair and six memory pairs. The
other 18 pairs are the unsupported addressing modes of R70. -/
def definedMode (mode : BitVec 2) (rm : BitVec 3) : Bool :=
  mode == 3 || [(0, 1), (0, 6), (0, 7), (1, 3), (2, 5), (2, 7)].contains (mode, rm)

/-- The operand is one whose resolution raises `DecodeAbort(BadAddressingMode)` (30_encoding.md R64, R70). -/
def RM.isUndefined : RM → Bool
  | .undefined _ _ => true
  | .reg _ | .bxDi | .direct _ | .bx | .bpDiDisp _ | .diDisp _ | .bxDisp _ => false

/-- An `undefined` operand names a pair that is undefined. -/
def RM.wf : RM → Bool
  | .undefined mode rm => !definedMode mode rm
  | .reg _ | .bxDi | .direct _ | .bx | .bpDiDisp _ | .diDisp _ | .bxDisp _ => true

/-- The operand of an instruction with an immediate: the resolver runs before the immediate is fetched (40_alu.md R116,
41_move_exchange.md R136), so an undefined operand carries the immediate 0, standing for "none fetched". -/
def RM.wfImm {w : Nat} (rm : RM) (imm : BitVec w) : Bool :=
  rm.wf && (!rm.isUndefined || imm == 0)

/-- The well-formed instructions: exactly the ones the encoding has (Obligations.EncodeInvertsDecode). -/
def Instr.wf : Instr → Bool
  | .addEbGb rm _ | .addEvGv rm _ | .addGbEb _ rm | .addGvEv _ rm => rm.wf
  | .orEbGb rm _ | .orEvGv rm _ | .orGbEb _ rm | .orGvEv _ rm => rm.wf
  | .adcEbGb rm _ | .adcEvGv rm _ | .adcGbEb _ rm | .adcGvEv _ rm => rm.wf
  | .sbbEbGb rm _ | .sbbEvGv rm _ | .sbbGbEb _ rm | .sbbGvEv _ rm => rm.wf
  | .andEbGb rm _ | .andEvGv rm _ | .andGbEb _ rm | .andGvEv _ rm => rm.wf
  | .subEbGb rm _ | .subEvGv rm _ | .subGbEb _ rm | .subGvEv _ rm => rm.wf
  | .xorEbGb rm _ | .xorEvGv rm _ | .xorGbEb _ rm | .xorGvEv _ rm => rm.wf
  | .cmpEbGb rm _ | .cmpEvGv rm _ | .cmpGbEb _ rm | .cmpGvEv _ rm => rm.wf
  | .addEbIb rm imm => rm.wfImm imm
  | .orEbIb rm imm => rm.wfImm imm
  | .adcEbIb rm imm => rm.wfImm imm
  | .sbbEbIb rm imm => rm.wfImm imm
  | .andEbIb rm imm => rm.wfImm imm
  | .subEbIb rm imm => rm.wfImm imm
  | .xorEbIb rm imm => rm.wfImm imm
  | .cmpEbIb rm imm => rm.wfImm imm
  | .addEvIw rm imm => rm.wfImm imm
  | .orEvIw rm imm => rm.wfImm imm
  | .adcEvIw rm imm => rm.wfImm imm
  | .sbbEvIw rm imm => rm.wfImm imm
  | .andEvIw rm imm => rm.wfImm imm
  | .subEvIw rm imm => rm.wfImm imm
  | .xorEvIw rm imm => rm.wfImm imm
  | .cmpEvIw rm imm => rm.wfImm imm
  | .addEvSIb rm imm => rm.wfImm imm
  | .orEvSIb rm imm => rm.wfImm imm
  | .adcEvSIb rm imm => rm.wfImm imm
  | .sbbEvSIb rm imm => rm.wfImm imm
  | .andEvSIb rm imm => rm.wfImm imm
  | .subEvSIb rm imm => rm.wfImm imm
  | .xorEvSIb rm imm => rm.wfImm imm
  | .cmpEvSIb rm imm => rm.wfImm imm
  | .incR16 _ | .decR16 _ | .pushR16 _ | .popR16 _ => true
  | .movEbGb rm _ | .movEvGv rm _ | .movGbEb _ rm | .movGvEv _ rm => rm.wf
  | .movR8Ib _ _ | .movR16Iw _ _ => true
  | .movEbIb rm imm => rm.wfImm imm
  | .movEvIw rm imm => rm.wfImm imm
  | .xchgEbGb rm _ => rm.wf
  | .xchgAxCx | .xchgAxDx | .xchgAxBx | .xchgAxSp | .xchgAxBp | .xchgAxSi | .xchgAxDi => true
  | .incEb rm | .decEb rm => rm.wf
  | .jbRel8 _ | .jzRel8 _ | .jnzRel8 _ | .jbeRel8 _ | .jaRel8 _ | .jnsRel8 _ | .jmpRel8 _ => true
  | .callRel16 _ | .ret | .nop | .stc | .hlt => true

end Sys2Proof
end

