-- ==== Sys2Proof/Decode.lean ====
section
/-! DEFINITION. The decoder, from a list of instruction-stream bytes to an instruction and the bytes left, and the encoder,
both written from the encoding tables of 30_encoding.md. The bit-field and byte-order helpers stand here too. -/

namespace Sys2Proof

/-! ### Bit fields and byte order -/

/-- `cat(h, l)`: the 16-bit value with high byte `h` and low byte `l` (00_scope.md R8). -/
def cat (h l : Byte) : Word := h ++ l

/-- `v[7:0]`. -/
def loByte (v : Word) : Byte := v.extractLsb' 0 8

/-- `v[15:8]`. -/
def hiByte (v : Word) : Byte := v.extractLsb' 8 8

/-- `sext_16`: a byte widened as two's complement (00_scope.md R9). -/
def sext16 (v : Byte) : Word := v.signExtend 16

/-- `m[7:6]`, the mode field of a ModR/M byte (30_encoding.md R63). -/
def modeField (m : Byte) : BitVec 2 := m.extractLsb' 6 2

/-- `m[5:3]`, the `reg` field of a ModR/M byte (30_encoding.md R63), and the ALU operation of an opcode (R67). -/
def regField (m : Byte) : RegNum := m.extractLsb' 3 3

/-- `m[2:0]`, the `rm` field of a ModR/M byte (30_encoding.md R63), and the register of an opcode (R67). -/
def rmField (m : Byte) : RegNum := m.extractLsb' 0 3

/-- The 3-bit code of an ALU operation (40_alu.md R100). -/
def AluOp.code : AluOp → BitVec 3
  | .add => 0
  | .or  => 1
  | .adc => 2
  | .sbb => 3
  | .and => 4
  | .sub => 5
  | .xor => 6
  | .cmp => 7

/-- The operation of a 3-bit code (40_alu.md R100); every code has one (30_encoding.md R79). -/
def AluOp.ofCode : BitVec 3 → AluOp
  | 0 => .add
  | 1 => .or
  | 2 => .adc
  | 3 => .sbb
  | 4 => .and
  | 5 => .sub
  | 6 => .xor
  | 7 => .cmp

/-! ### The ALU instructions by their operation -/

/-- ALU r/m8, r8 (40_alu.md R112), by its operation. -/
def aluEbGb : AluOp → RM → RegNum → Instr
  | .add => .addEbGb
  | .or => .orEbGb
  | .adc => .adcEbGb
  | .sbb => .sbbEbGb
  | .and => .andEbGb
  | .sub => .subEbGb
  | .xor => .xorEbGb
  | .cmp => .cmpEbGb

/-- ALU r/m16, r16 (40_alu.md R113), by its operation. -/
def aluEvGv : AluOp → RM → RegNum → Instr
  | .add => .addEvGv
  | .or => .orEvGv
  | .adc => .adcEvGv
  | .sbb => .sbbEvGv
  | .and => .andEvGv
  | .sub => .subEvGv
  | .xor => .xorEvGv
  | .cmp => .cmpEvGv

/-- ALU r8, r/m8 (40_alu.md R114), by its operation. -/
def aluGbEb : AluOp → RegNum → RM → Instr
  | .add => .addGbEb
  | .or => .orGbEb
  | .adc => .adcGbEb
  | .sbb => .sbbGbEb
  | .and => .andGbEb
  | .sub => .subGbEb
  | .xor => .xorGbEb
  | .cmp => .cmpGbEb

/-- ALU r16, r/m16 (40_alu.md R115), by its operation. -/
def aluGvEv : AluOp → RegNum → RM → Instr
  | .add => .addGvEv
  | .or => .orGvEv
  | .adc => .adcGvEv
  | .sbb => .sbbGvEv
  | .and => .andGvEv
  | .sub => .subGvEv
  | .xor => .xorGvEv
  | .cmp => .cmpGvEv

/-- ALU r/m8, imm8 (40_alu.md R116), by its operation. -/
def aluEbIb : AluOp → RM → Byte → Instr
  | .add => .addEbIb
  | .or => .orEbIb
  | .adc => .adcEbIb
  | .sbb => .sbbEbIb
  | .and => .andEbIb
  | .sub => .subEbIb
  | .xor => .xorEbIb
  | .cmp => .cmpEbIb

/-- ALU r/m16, imm16 (40_alu.md R117), by its operation. -/
def aluEvIw : AluOp → RM → Word → Instr
  | .add => .addEvIw
  | .or => .orEvIw
  | .adc => .adcEvIw
  | .sbb => .sbbEvIw
  | .and => .andEvIw
  | .sub => .subEvIw
  | .xor => .xorEvIw
  | .cmp => .cmpEvIw

/-- ALU r/m16, sign-extended imm8 (40_alu.md R118), by its operation. -/
def aluEvSIb : AluOp → RM → Byte → Instr
  | .add => .addEvSIb
  | .or => .orEvSIb
  | .adc => .adcEvSIb
  | .sbb => .sbbEvSIb
  | .and => .andEvSIb
  | .sub => .subEvSIb
  | .xor => .xorEvSIb
  | .cmp => .cmpEvSIb

/-! ### The opcode map -/

/-- What the opcode byte alone decides (30_encoding.md R69): which handler runs, hence which bytes follow (R73). -/
inductive Form where
  | aluEbGb | aluEvGv | aluGbEb | aluGvEv
  | grp1EbIb | grp1EvIw | grp1EvSIb
  | incR16 | decR16 | pushR16 | popR16
  | jb | jz | jnz | jbe | ja | jns
  | xchgEbGb | movEbGb | movEvGv | movGbEb | movGvEv
  | nop | xchgAxCx | xchgAxDx | xchgAxBx | xchgAxSp | xchgAxBp | xchgAxSi | xchgAxDi
  | movR8Ib | movR16Iw
  | ret | movEbIb | movEvIw | call | jmp | hlt | stc | grp2Eb
deriving DecidableEq, Repr

/-- A row of the opcode map: an opcode byte belongs to it when its bits under `mask` are those of `pattern`. -/
structure OpcodeRow where
  mask    : Byte
  pattern : Byte
  form    : Form
deriving DecidableEq, Repr

/-- The opcode map (30_encoding.md R67, R69): 110 byte values in 40 rows. -/
def opcodeMap : List OpcodeRow :=
  [⟨0xC7, 0x00, .aluEbGb⟩, ⟨0xC7, 0x01, .aluEvGv⟩, ⟨0xC7, 0x02, .aluGbEb⟩, ⟨0xC7, 0x03, .aluGvEv⟩,
   ⟨0xF8, 0x40, .incR16⟩, ⟨0xF8, 0x48, .decR16⟩, ⟨0xF8, 0x50, .pushR16⟩, ⟨0xF8, 0x58, .popR16⟩,
   ⟨0xFF, 0x72, .jb⟩, ⟨0xFF, 0x74, .jz⟩, ⟨0xFF, 0x75, .jnz⟩, ⟨0xFF, 0x76, .jbe⟩, ⟨0xFF, 0x77, .ja⟩, ⟨0xFF, 0x79, .jns⟩,
   ⟨0xFF, 0x80, .grp1EbIb⟩, ⟨0xFF, 0x81, .grp1EvIw⟩, ⟨0xFF, 0x83, .grp1EvSIb⟩, ⟨0xFF, 0x86, .xchgEbGb⟩,
   ⟨0xFF, 0x88, .movEbGb⟩, ⟨0xFF, 0x89, .movEvGv⟩, ⟨0xFF, 0x8A, .movGbEb⟩, ⟨0xFF, 0x8B, .movGvEv⟩]
  ++
  [⟨0xFF, 0x90, .nop⟩, ⟨0xFF, 0x91, .xchgAxCx⟩, ⟨0xFF, 0x92, .xchgAxDx⟩, ⟨0xFF, 0x93, .xchgAxBx⟩,
   ⟨0xFF, 0x94, .xchgAxSp⟩, ⟨0xFF, 0x95, .xchgAxBp⟩, ⟨0xFF, 0x96, .xchgAxSi⟩, ⟨0xFF, 0x97, .xchgAxDi⟩,
   ⟨0xF8, 0xB0, .movR8Ib⟩, ⟨0xF8, 0xB8, .movR16Iw⟩, ⟨0xFF, 0xC3, .ret⟩, ⟨0xFF, 0xC6, .movEbIb⟩, ⟨0xFF, 0xC7, .movEvIw⟩,
   ⟨0xFF, 0xE8, .call⟩, ⟨0xFF, 0xEB, .jmp⟩, ⟨0xFF, 0xF4, .hlt⟩, ⟨0xFF, 0xF9, .stc⟩, ⟨0xFF, 0xFE, .grp2Eb⟩]

/-- The row's bits are those of the opcode byte. -/
def OpcodeRow.covers (row : OpcodeRow) (op : Byte) : Bool := op &&& row.mask == row.pattern

/-- The handler of an opcode byte, or none for an unsupported opcode (30_encoding.md R69, R70). -/
def formOf (op : Byte) : Option Form := (opcodeMap.find? (·.covers op)).map (·.form)

/-! ### Decoding -/

/-- Why bytes are no instruction of the table. -/
inductive DecodeError where
  /-- The opcode byte is one of the 146 unsupported values (30_encoding.md R70 point 1). -/
  | unsupportedOpcode (op : Byte)
  /-- FE, C6 or C7 with a `reg` that selects nothing AND an undefined (mode, rm) pair: the resolver's abort comes first
  (60_exceptions.md R217). With a `reg` that selects an instruction, the pair is that instruction's own abort. -/
  | badAddressingMode (m : Byte)
  /-- FE with `reg` 2..7, or C6/C7 with `reg` 1..7 (30_encoding.md R72). -/
  | badSubOpcode (op : Byte) (reg : RegNum)
  /-- The list of bytes ends inside the instruction. Never from the six bytes `step` gives (30_encoding.md R60). -/
  | truncated
deriving DecidableEq, Repr

/-- What decoding answers: an instruction and the bytes after it, or the reason there is none. -/
abbrev Decoded := Except DecodeError (Instr × List Byte)

/-- `fetch8()` on a list of bytes (30_encoding.md R61). -/
def withByte (bs : List Byte) (k : Byte → List Byte → Decoded) : Decoded :=
  match bs with
  | b :: rest => k b rest
  | [] => .error .truncated

/-- `fetch16()` on a list of bytes: the low byte comes first (30_encoding.md R62). -/
def withWord (bs : List Byte) (k : Word → List Byte → Decoded) : Decoded :=
  withByte bs fun lo rest => withByte rest fun hi rest => k (cat hi lo) rest

/-- A ModR/M byte and its displacement: `k` receives `reg` and what (mode, rm) select (30_encoding.md R63, R64). -/
def withModRM (bs : List Byte) (k : RegNum → RM → List Byte → Decoded) : Decoded :=
  withByte bs fun m rest =>
    let reg := regField m
    match modeField m, rmField m with
    | 3, rm => k reg (.reg rm) rest
    | 0, 1  => k reg .bxDi rest
    | 0, 6  => withWord rest fun d rest => k reg (.direct d) rest
    | 0, 7  => k reg .bx rest
    | 1, 3  => withByte rest fun d rest => k reg (.bpDiDisp d) rest
    | 2, 5  => withWord rest fun d rest => k reg (.diDisp d) rest
    | 2, 7  => withWord rest fun d rest => k reg (.bxDisp d) rest
    | mode, rm => k reg (.undefined mode rm) rest

/-- An imm8 after the operand; the resolver's abort comes before the fetch (40_alu.md R116). -/
def withImm8 (rm : RM) (bs : List Byte) (k : Byte → List Byte → Decoded) : Decoded :=
  if rm.isUndefined then k 0 bs else withByte bs k

/-- An imm16 after the operand; the resolver's abort comes before the fetch (40_alu.md R117). -/
def withImm16 (rm : RM) (bs : List Byte) (k : Word → List Byte → Decoded) : Decoded :=
  if rm.isUndefined then k 0 bs else withWord bs k

/-- The two bits of `mode` of an operand. -/
def RM.modeBits : RM → BitVec 2
  | .reg _         => 3
  | .bxDi          => 0
  | .direct _      => 0
  | .bx            => 0
  | .bpDiDisp _    => 1
  | .diDisp _      => 2
  | .bxDisp _      => 2
  | .undefined m _ => m

/-- The three bits of `rm` of an operand. -/
def RM.rmBits : RM → BitVec 3
  | .reg r          => r
  | .bxDi           => 1
  | .direct _       => 6
  | .bx             => 7
  | .bpDiDisp _     => 3
  | .diDisp _       => 5
  | .bxDisp _       => 7
  | .undefined _ rm => rm

/-- The ModR/M byte of a `reg` field and an operand (30_encoding.md R63). -/
def RM.modRMByte (rm : RM) (reg : RegNum) : Byte := rm.modeBits ++ reg ++ rm.rmBits

/-- The error of a `reg` that selects no instruction: after the resolver's own abort (30_encoding.md R72). -/
def badSelector (op : Byte) (reg : RegNum) (rm : RM) : Decoded :=
  if rm.isUndefined then .error (.badAddressingMode (rm.modRMByte reg)) else .error (.badSubOpcode op reg)

/-- The bytes after the opcode, by the opcode's handler (30_encoding.md R66 to R69). -/
def decodeForm (op : Byte) (bs : List Byte) : Form → Decoded
  | .aluEbGb   => withModRM bs fun reg rm rest => .ok (aluEbGb (.ofCode (regField op)) rm reg, rest)
  | .aluEvGv   => withModRM bs fun reg rm rest => .ok (aluEvGv (.ofCode (regField op)) rm reg, rest)
  | .aluGbEb   => withModRM bs fun reg rm rest => .ok (aluGbEb (.ofCode (regField op)) reg rm, rest)
  | .aluGvEv   => withModRM bs fun reg rm rest => .ok (aluGvEv (.ofCode (regField op)) reg rm, rest)
  | .grp1EbIb  => withModRM bs fun k rm rest => withImm8 rm rest fun imm rest => .ok (aluEbIb (.ofCode k) rm imm, rest)
  | .grp1EvIw  => withModRM bs fun k rm rest => withImm16 rm rest fun imm rest => .ok (aluEvIw (.ofCode k) rm imm, rest)
  | .grp1EvSIb => withModRM bs fun k rm rest => withImm8 rm rest fun imm rest => .ok (aluEvSIb (.ofCode k) rm imm, rest)
  | .incR16    => .ok (.incR16 (rmField op), bs)
  | .decR16    => .ok (.decR16 (rmField op), bs)
  | .pushR16   => .ok (.pushR16 (rmField op), bs)
  | .popR16    => .ok (.popR16 (rmField op), bs)
  | .jb        => withByte bs fun rel rest => .ok (.jbRel8 rel, rest)
  | .jz        => withByte bs fun rel rest => .ok (.jzRel8 rel, rest)
  | .jnz       => withByte bs fun rel rest => .ok (.jnzRel8 rel, rest)
  | .jbe       => withByte bs fun rel rest => .ok (.jbeRel8 rel, rest)
  | .ja        => withByte bs fun rel rest => .ok (.jaRel8 rel, rest)
  | .jns       => withByte bs fun rel rest => .ok (.jnsRel8 rel, rest)
  | .xchgEbGb  => withModRM bs fun reg rm rest => .ok (.xchgEbGb rm reg, rest)
  | .movEbGb   => withModRM bs fun reg rm rest => .ok (.movEbGb rm reg, rest)
  | .movEvGv   => withModRM bs fun reg rm rest => .ok (.movEvGv rm reg, rest)
  | .movGbEb   => withModRM bs fun reg rm rest => .ok (.movGbEb reg rm, rest)
  | .movGvEv   => withModRM bs fun reg rm rest => .ok (.movGvEv reg rm, rest)
  | .nop       => .ok (.nop, bs)
  | .xchgAxCx  => .ok (.xchgAxCx, bs)
  | .xchgAxDx  => .ok (.xchgAxDx, bs)
  | .xchgAxBx  => .ok (.xchgAxBx, bs)
  | .xchgAxSp  => .ok (.xchgAxSp, bs)
  | .xchgAxBp  => .ok (.xchgAxBp, bs)
  | .xchgAxSi  => .ok (.xchgAxSi, bs)
  | .xchgAxDi  => .ok (.xchgAxDi, bs)
  | .movR8Ib   => withByte bs fun imm rest => .ok (.movR8Ib (rmField op) imm, rest)
  | .movR16Iw  => withWord bs fun imm rest => .ok (.movR16Iw (rmField op) imm, rest)
  | .ret       => .ok (.ret, bs)
  | .movEbIb   => withModRM bs fun reg rm rest =>
      if reg = 0 then withImm8 rm rest fun imm rest => .ok (.movEbIb rm imm, rest) else badSelector op reg rm
  | .movEvIw   => withModRM bs fun reg rm rest =>
      if reg = 0 then withImm16 rm rest fun imm rest => .ok (.movEvIw rm imm, rest) else badSelector op reg rm
  | .call      => withWord bs fun rel rest => .ok (.callRel16 rel, rest)
  | .jmp       => withByte bs fun rel rest => .ok (.jmpRel8 rel, rest)
  | .hlt       => .ok (.hlt, bs)
  | .stc       => .ok (.stc, bs)
  | .grp2Eb    => withModRM bs fun reg rm rest =>
      if reg = 0 then .ok (.incEb rm, rest) else if reg = 1 then .ok (.decEb rm, rest) else badSelector op reg rm

/-- The decoder: total on every list of bytes (30_encoding.md R69, R78). -/
def decode : List Byte → Decoded
  | [] => .error .truncated
  | op :: bs =>
    match formOf op with
    | some form => decodeForm op bs form
    | none => .error (.unsupportedOpcode op)

/-! ### Encoding -/

/-- The displacement bytes of an operand, little-endian (30_encoding.md R65). -/
def RM.dispBytes : RM → List Byte
  | .reg _         => []
  | .bxDi          => []
  | .direct d      => [loByte d, hiByte d]
  | .bx            => []
  | .bpDiDisp d    => [d]
  | .diDisp d      => [loByte d, hiByte d]
  | .bxDisp d      => [loByte d, hiByte d]
  | .undefined _ _ => []

/-- A ModR/M byte and the displacement after it (30_encoding.md R60). -/
def RM.encode (rm : RM) (reg : RegNum) : List Byte := rm.modRMByte reg :: rm.dispBytes

/-- An imm8 after the operand; none is fetched after an undefined one. -/
def RM.imm8Bytes (rm : RM) (imm : Byte) : List Byte := if rm.isUndefined then [] else [imm]

/-- An imm16 after the operand, little-endian; none is fetched after an undefined one. -/
def RM.imm16Bytes (rm : RM) (imm : Word) : List Byte := if rm.isUndefined then [] else [loByte imm, hiByte imm]

/-- The opcode of an ALU register form: operation in `op[5:3]`, direction in `op[1]`, width in `op[0]` (30_encoding.md R67). -/
def aluOpcode (k : AluOp) (d w : BitVec 1) : Byte := (0 : BitVec 2) ++ k.code ++ (0 : BitVec 1) ++ d ++ w

/-- An opcode with the register number in `op[2:0]` (30_encoding.md R67). -/
def regOpcode (high : BitVec 5) (r : RegNum) : Byte := high ++ r

/-- The words of an instruction, in stream order (30_encoding.md R60, R67 to R69). -/
def encode : Instr → List Byte
  | .addEbGb rm reg => aluOpcode .add 0 0 :: rm.encode reg
  | .addEvGv rm reg => aluOpcode .add 0 1 :: rm.encode reg
  | .addGbEb reg rm => aluOpcode .add 1 0 :: rm.encode reg
  | .addGvEv reg rm => aluOpcode .add 1 1 :: rm.encode reg
  | .orEbGb rm reg => aluOpcode .or 0 0 :: rm.encode reg
  | .orEvGv rm reg => aluOpcode .or 0 1 :: rm.encode reg
  | .orGbEb reg rm => aluOpcode .or 1 0 :: rm.encode reg
  | .orGvEv reg rm => aluOpcode .or 1 1 :: rm.encode reg
  | .adcEbGb rm reg => aluOpcode .adc 0 0 :: rm.encode reg
  | .adcEvGv rm reg => aluOpcode .adc 0 1 :: rm.encode reg
  | .adcGbEb reg rm => aluOpcode .adc 1 0 :: rm.encode reg
  | .adcGvEv reg rm => aluOpcode .adc 1 1 :: rm.encode reg
  | .sbbEbGb rm reg => aluOpcode .sbb 0 0 :: rm.encode reg
  | .sbbEvGv rm reg => aluOpcode .sbb 0 1 :: rm.encode reg
  | .sbbGbEb reg rm => aluOpcode .sbb 1 0 :: rm.encode reg
  | .sbbGvEv reg rm => aluOpcode .sbb 1 1 :: rm.encode reg
  | .andEbGb rm reg => aluOpcode .and 0 0 :: rm.encode reg
  | .andEvGv rm reg => aluOpcode .and 0 1 :: rm.encode reg
  | .andGbEb reg rm => aluOpcode .and 1 0 :: rm.encode reg
  | .andGvEv reg rm => aluOpcode .and 1 1 :: rm.encode reg
  | .subEbGb rm reg => aluOpcode .sub 0 0 :: rm.encode reg
  | .subEvGv rm reg => aluOpcode .sub 0 1 :: rm.encode reg
  | .subGbEb reg rm => aluOpcode .sub 1 0 :: rm.encode reg
  | .subGvEv reg rm => aluOpcode .sub 1 1 :: rm.encode reg
  | .xorEbGb rm reg => aluOpcode .xor 0 0 :: rm.encode reg
  | .xorEvGv rm reg => aluOpcode .xor 0 1 :: rm.encode reg
  | .xorGbEb reg rm => aluOpcode .xor 1 0 :: rm.encode reg
  | .xorGvEv reg rm => aluOpcode .xor 1 1 :: rm.encode reg
  | .cmpEbGb rm reg => aluOpcode .cmp 0 0 :: rm.encode reg
  | .cmpEvGv rm reg => aluOpcode .cmp 0 1 :: rm.encode reg
  | .cmpGbEb reg rm => aluOpcode .cmp 1 0 :: rm.encode reg
  | .cmpGvEv reg rm => aluOpcode .cmp 1 1 :: rm.encode reg
  | .addEbIb rm imm => 0x80 :: (rm.encode AluOp.add.code ++ rm.imm8Bytes imm)
  | .orEbIb rm imm => 0x80 :: (rm.encode AluOp.or.code ++ rm.imm8Bytes imm)
  | .adcEbIb rm imm => 0x80 :: (rm.encode AluOp.adc.code ++ rm.imm8Bytes imm)
  | .sbbEbIb rm imm => 0x80 :: (rm.encode AluOp.sbb.code ++ rm.imm8Bytes imm)
  | .andEbIb rm imm => 0x80 :: (rm.encode AluOp.and.code ++ rm.imm8Bytes imm)
  | .subEbIb rm imm => 0x80 :: (rm.encode AluOp.sub.code ++ rm.imm8Bytes imm)
  | .xorEbIb rm imm => 0x80 :: (rm.encode AluOp.xor.code ++ rm.imm8Bytes imm)
  | .cmpEbIb rm imm => 0x80 :: (rm.encode AluOp.cmp.code ++ rm.imm8Bytes imm)
  | .addEvIw rm imm => 0x81 :: (rm.encode AluOp.add.code ++ rm.imm16Bytes imm)
  | .orEvIw rm imm => 0x81 :: (rm.encode AluOp.or.code ++ rm.imm16Bytes imm)
  | .adcEvIw rm imm => 0x81 :: (rm.encode AluOp.adc.code ++ rm.imm16Bytes imm)
  | .sbbEvIw rm imm => 0x81 :: (rm.encode AluOp.sbb.code ++ rm.imm16Bytes imm)
  | .andEvIw rm imm => 0x81 :: (rm.encode AluOp.and.code ++ rm.imm16Bytes imm)
  | .subEvIw rm imm => 0x81 :: (rm.encode AluOp.sub.code ++ rm.imm16Bytes imm)
  | .xorEvIw rm imm => 0x81 :: (rm.encode AluOp.xor.code ++ rm.imm16Bytes imm)
  | .cmpEvIw rm imm => 0x81 :: (rm.encode AluOp.cmp.code ++ rm.imm16Bytes imm)
  | .addEvSIb rm imm => 0x83 :: (rm.encode AluOp.add.code ++ rm.imm8Bytes imm)
  | .orEvSIb rm imm => 0x83 :: (rm.encode AluOp.or.code ++ rm.imm8Bytes imm)
  | .adcEvSIb rm imm => 0x83 :: (rm.encode AluOp.adc.code ++ rm.imm8Bytes imm)
  | .sbbEvSIb rm imm => 0x83 :: (rm.encode AluOp.sbb.code ++ rm.imm8Bytes imm)
  | .andEvSIb rm imm => 0x83 :: (rm.encode AluOp.and.code ++ rm.imm8Bytes imm)
  | .subEvSIb rm imm => 0x83 :: (rm.encode AluOp.sub.code ++ rm.imm8Bytes imm)
  | .xorEvSIb rm imm => 0x83 :: (rm.encode AluOp.xor.code ++ rm.imm8Bytes imm)
  | .cmpEvSIb rm imm => 0x83 :: (rm.encode AluOp.cmp.code ++ rm.imm8Bytes imm)
  | .incR16 r => [regOpcode 0b01000 r]
  | .decR16 r => [regOpcode 0b01001 r]
  | .pushR16 r => [regOpcode 0b01010 r]
  | .popR16 r => [regOpcode 0b01011 r]
  | .movEbGb rm reg => 0x88 :: rm.encode reg
  | .movEvGv rm reg => 0x89 :: rm.encode reg
  | .movGbEb reg rm => 0x8A :: rm.encode reg
  | .movGvEv reg rm => 0x8B :: rm.encode reg
  | .movR8Ib r imm => [regOpcode 0b10110 r, imm]
  | .movR16Iw r imm => [regOpcode 0b10111 r, loByte imm, hiByte imm]
  | .movEbIb rm imm => 0xC6 :: (rm.encode 0 ++ rm.imm8Bytes imm)
  | .movEvIw rm imm => 0xC7 :: (rm.encode 0 ++ rm.imm16Bytes imm)
  | .xchgEbGb rm reg => 0x86 :: rm.encode reg
  | .xchgAxCx => [0x91]
  | .xchgAxDx => [0x92]
  | .xchgAxBx => [0x93]
  | .xchgAxSp => [0x94]
  | .xchgAxBp => [0x95]
  | .xchgAxSi => [0x96]
  | .xchgAxDi => [0x97]
  | .incEb rm => 0xFE :: rm.encode 0
  | .decEb rm => 0xFE :: rm.encode 1
  | .jbRel8 rel => [0x72, rel]
  | .jzRel8 rel => [0x74, rel]
  | .jnzRel8 rel => [0x75, rel]
  | .jbeRel8 rel => [0x76, rel]
  | .jaRel8 rel => [0x77, rel]
  | .jnsRel8 rel => [0x79, rel]
  | .jmpRel8 rel => [0xEB, rel]
  | .callRel16 rel => [0xE8, loByte rel, hiByte rel]
  | .ret => [0xC3]
  | .nop => [0x90]
  | .stc => [0xF9]
  | .hlt => [0xF4]

/-- The `reg` field and the r/m operand of an instruction that has a ModR/M byte (30_encoding.md R66, R71). -/
def Instr.modRM : Instr → Option (RegNum × RM)
  | .addEbGb rm reg | .addEvGv rm reg | .addGbEb reg rm | .addGvEv reg rm => some (reg, rm)
  | .orEbGb rm reg | .orEvGv rm reg | .orGbEb reg rm | .orGvEv reg rm => some (reg, rm)
  | .adcEbGb rm reg | .adcEvGv rm reg | .adcGbEb reg rm | .adcGvEv reg rm => some (reg, rm)
  | .sbbEbGb rm reg | .sbbEvGv rm reg | .sbbGbEb reg rm | .sbbGvEv reg rm => some (reg, rm)
  | .andEbGb rm reg | .andEvGv rm reg | .andGbEb reg rm | .andGvEv reg rm => some (reg, rm)
  | .subEbGb rm reg | .subEvGv rm reg | .subGbEb reg rm | .subGvEv reg rm => some (reg, rm)
  | .xorEbGb rm reg | .xorEvGv rm reg | .xorGbEb reg rm | .xorGvEv reg rm => some (reg, rm)
  | .cmpEbGb rm reg | .cmpEvGv rm reg | .cmpGbEb reg rm | .cmpGvEv reg rm => some (reg, rm)
  | .addEbIb rm _ | .addEvIw rm _ | .addEvSIb rm _ => some (AluOp.add.code, rm)
  | .orEbIb rm _ | .orEvIw rm _ | .orEvSIb rm _ => some (AluOp.or.code, rm)
  | .adcEbIb rm _ | .adcEvIw rm _ | .adcEvSIb rm _ => some (AluOp.adc.code, rm)
  | .sbbEbIb rm _ | .sbbEvIw rm _ | .sbbEvSIb rm _ => some (AluOp.sbb.code, rm)
  | .andEbIb rm _ | .andEvIw rm _ | .andEvSIb rm _ => some (AluOp.and.code, rm)
  | .subEbIb rm _ | .subEvIw rm _ | .subEvSIb rm _ => some (AluOp.sub.code, rm)
  | .xorEbIb rm _ | .xorEvIw rm _ | .xorEvSIb rm _ => some (AluOp.xor.code, rm)
  | .cmpEbIb rm _ | .cmpEvIw rm _ | .cmpEvSIb rm _ => some (AluOp.cmp.code, rm)
  | .incR16 _ | .decR16 _ | .pushR16 _ | .popR16 _ => none
  | .movEbGb rm reg | .movEvGv rm reg | .movGbEb reg rm | .movGvEv reg rm => some (reg, rm)
  | .movR8Ib _ _ | .movR16Iw _ _ => none
  | .movEbIb rm _ | .movEvIw rm _ => some (0, rm)
  | .xchgEbGb rm reg => some (reg, rm)
  | .xchgAxCx | .xchgAxDx | .xchgAxBx | .xchgAxSp | .xchgAxBp | .xchgAxSi | .xchgAxDi => none
  | .incEb rm => some (0, rm)
  | .decEb rm => some (1, rm)
  | .jbRel8 _ | .jzRel8 _ | .jnzRel8 _ | .jbeRel8 _ | .jaRel8 _ | .jnsRel8 _ | .jmpRel8 _ => none
  | .callRel16 _ | .ret | .nop | .stc | .hlt => none

/-! ### Words as spec/opcode_table.json numbers them -/

/-- The bytes, in stream order, of a table word of `nbits` bits followed by zeros up to six bytes. The table reads a
two-byte row as `(opcode << 8) | modrm`, so the FIRST byte of the stream is the most significant one (log entry 9). -/
def tableWordBytes (nbits w : Nat) : List Byte :=
  let n := (nbits + 7) / 8
  (List.range n).map (fun i => BitVec.ofNat 8 (w >>> (8 * (n - 1 - i)))) ++ List.replicate (6 - n) 0

/-- The instruction the decoder reads from a table word, none where it refuses. -/
def decodeTableWord (nbits w : Nat) : Option Instr :=
  match decode (tableWordBytes nbits w) with
  | .ok (i, _) => some i
  | .error _ => none

end Sys2Proof
end

