-- ==== Sys2Proof/Machine/State.lean ====
section
/-! DEFINITION. The architectural state (10_state.md R20), the reset state (R33 to R37; 70_reset_and_hazards.md R240) and
the reasons a step can stop with. The block's own terminal conditions (60_exceptions.md R210) are values of `status`, so a
step that raises one answers a next state. -/

namespace Sys2Proof.Machine

/-- The flags: three independent booleans (10_state.md R28). -/
structure Flags where
  cf : Bool
  zf : Bool
  sf : Bool
deriving DecidableEq, Repr

/-- What a decode abort records (60_exceptions.md R210, R212). -/
inductive AbortInfo where
  /-- An undefined (mode, rm) pair, with the whole ModR/M byte (30_encoding.md R64, R70). -/
  | badAddressingMode (m : Byte)
  /-- A `reg` sub-selector of FE, C6 or C7 that selects nothing (30_encoding.md R72). -/
  | badSubOpcode (op : Byte) (reg : RegNum)
deriving DecidableEq, Repr

/-- The execution status (10_state.md R31). Every value but `running` is terminal. -/
inductive Status where
  | running
  /-- The halt opcode executed (45_misc.md R202). -/
  | halted
  /-- The opcode byte is not in the supported table (60_exceptions.md R211). -/
  | unsupported (op : Byte)
  /-- Fatal decode failure (60_exceptions.md R212). -/
  | aborted (info : AbortInfo)
  /-- Stack-pointer wrap under `P_STACK_WRAP = Fault` (60_exceptions.md R213). -/
  | stackFault
deriving DecidableEq, Repr

/-- The 64 KiB byte memory (20_memory.md R40) as the list of its bytes that are not 0x00, by rising address
(`Memory.wf`, Ops.lean). An unlisted address reads as 0x00, the reset contents (10_state.md R37). -/
abbrev Memory := List Host.Cell

/-- The register file: 16 bytes, byte `2i` the low and byte `2i+1` the high byte of word register `i` (10_state.md R21). -/
abbrev RegFile := Vector Byte 16

/-- The state of the block (10_state.md R20), and two fields that are the model's own: the parameters of 00_scope.md R6,
which no step changes, and the counter of free values drawn (log entries 2 and 3). -/
structure State where
  /-- `mem` (20_memory.md R40). -/
  mem    : Memory
  /-- `ip` (10_state.md R26). -/
  ip     : Word
  /-- `RB[0..15]` (10_state.md R21). -/
  rb     : RegFile
  /-- CF, ZF, SF (10_state.md R28). -/
  flags  : Flags
  /-- `status` (10_state.md R31). -/
  status : Status
  /-- The model's own: `P_INCDEC_CF` and `P_STACK_WRAP` (00_scope.md R6). -/
  params : Config.Params
  /-- The model's own: how many free values have been drawn (`Config.freeIp`). -/
  draws  : Nat
deriving DecidableEq, Repr

/-- The register file at reset: SP is 0x0100 (10_state.md R33), the other seven are `P_RESET_GPR` (R34). -/
def RegFile.atReset (g : Config.ResetGpr) : RegFile :=
  #v[loByte g.ax, hiByte g.ax, loByte g.cx, hiByte g.cx, loByte g.dx, hiByte g.dx, loByte g.bx, hiByte g.bx,
     0x00, 0x01, loByte g.bp, hiByte g.bp, loByte g.si, hiByte g.si, loByte g.di, hiByte g.di]

/-- `Reset` under given parameters (70_reset_and_hazards.md R240): memory zeroed, ip 0x0000, flags false, `Running`. -/
def State.resetWith (p : Config.Params) (g : Config.ResetGpr) : State :=
  { mem := [], ip := 0, rb := RegFile.atReset g, flags := ⟨false, false, false⟩, status := .running, params := p, draws := 0 }

/-- The machine right after reset, with the spec's default parameters and the model's value of `P_RESET_GPR`
(log entry 1, DESIGN CHOICE). -/
def State.reset : State := State.resetWith Config.Params.default Config.ResetGpr.zero

/-- The one reason the model could stop with a fault. No state reaches it (Obligations.StepAlwaysAnswersNext): the block
has no fault of this kind, its own terminal conditions being values of `status`. -/
inductive Fault where
  /-- Raised by `step` if the decoder needs more than the six bytes of the fetch window. Safe, and unreachable: an
  instruction has 1 to 6 bytes (30_encoding.md R60). -/
  | fetchWindowTooShort
deriving DecidableEq, Repr

/-- The reasons an instruction has no meaning. -/
inductive Refusal where
  /-- Raised by an arm of `exec` for an instruction that has no meaning yet. Safe. No arm of this model raises it. -/
  | notModelled (mnemonic : String)
deriving DecidableEq, Repr

/-- What `exec`, `step` and every meaning answer. -/
abbrev Outcome := Host.Outcome State Fault Refusal

end Sys2Proof.Machine
end

