-- ==== Sys2Proof/Machine/Ops.lean ====
section
/-! DEFINITION. The named operations over memory and registers, instruction fetch, the stack helper, and the one operation
that raises a terminal condition. -/

namespace Sys2Proof.Machine

/-! ### Memory as a list of cells -/

/-- The byte at an address: the listed value, or 0x00 for an unlisted address (10_state.md R37). -/
def Memory.read : Memory → Nat → Byte
  | [], _ => 0
  | (b, v) :: rest, a => if b = a then v else Memory.read rest a

/-- The memory without any entry for `a`. -/
def Memory.erase : Memory → Nat → Memory
  | [], _ => []
  | (b, v) :: rest, a => if b = a then Memory.erase rest a else (b, v) :: Memory.erase rest a

/-- An entry for `a` put before the first greater address. -/
def Memory.insert : Memory → Nat → Byte → Memory
  | [], a, v => [(a, v)]
  | (b, w) :: rest, a, v => if a < b then (a, v) :: (b, w) :: rest else (b, w) :: Memory.insert rest a v

/-- Setting one byte (20_memory.md R41); writing 0x00, what an unlisted address reads as, leaves no entry. -/
def Memory.write (m : Memory) (a : Nat) (v : Byte) : Memory :=
  if v = 0 then m.erase a else (m.erase a).insert a v

/-- The canonical form from a lower bound on: addresses strictly rising, inside the 64 KiB space, no 0x00 listed. -/
def Memory.wfFrom : Nat → Memory → Bool
  | _, [] => true
  | lo, (a, v) :: rest => decide (lo ≤ a) && decide (a < 65536) && v != 0 && Memory.wfFrom (a + 1) rest

/-- The canonical form of a memory. -/
def Memory.wf (m : Memory) : Bool := Memory.wfFrom 0 m

/-! ### The memory interface -/

/-- `MemRead(a, 1)` (20_memory.md R41). -/
def State.readByte (s : State) (a : Word) : Byte := s.mem.read a.toNat

/-- `MemWrite(a, 1, v)` (20_memory.md R41). -/
def State.writeByte (s : State) (a : Word) (v : Byte) : State := { s with mem := s.mem.write a.toNat v }

/-- `MemRead(a, 2)`: little-endian, `a + 1` modulo 2^16 (20_memory.md R42, R43). -/
def State.readWord (s : State) (a : Word) : Word := cat (s.readByte (a + 1)) (s.readByte a)

/-- `MemWrite(a, 2, v)`: the low byte first (20_memory.md R42, R45). -/
def State.writeWord (s : State) (a : Word) (v : Word) : State :=
  (s.writeByte a (loByte v)).writeByte (a + 1) (hiByte v)

/-- Bytes written to consecutive addresses, modulo 2^16. -/
def State.placeBytes (s : State) (a : Word) : List Byte → State
  | [] => s
  | b :: bs => (s.writeByte a b).placeBytes (a + 1) bs

/-! ### The register file -/

/-- `RB[o]` (00_scope.md R10). -/
def State.regByte (s : State) (o : RegOff) : Byte := s.rb[o.toNat]'o.isLt

/-- `RB[o] <- v`. -/
def State.setRegByte (s : State) (o : RegOff) (v : Byte) : State := { s with rb := s.rb.set o.toNat v o.isLt }

/-- The offset `2r` of register `r` in register space (10_state.md R21). -/
def regOffset (r : RegNum) : RegOff := r ++ (0 : BitVec 1)

/-- Two bytes of register space as a word: offset `o` the low byte, `o + 1` modulo 16 the high byte (20_memory.md R46). -/
def State.regWord (s : State) (o : RegOff) : Word := cat (s.regByte (o + 1)) (s.regByte o)

/-- A word into two bytes of register space, the low byte first (20_memory.md R46). -/
def State.setRegWord (s : State) (o : RegOff) (v : Word) : State :=
  (s.setRegByte o (loByte v)).setRegByte (o + 1) (hiByte v)

/-- `x[r]`, the word register `r` (00_scope.md R10). -/
def State.reg16 (s : State) (r : RegNum) : Word := s.regWord (regOffset r)

/-- `x[r] <- v`. -/
def State.setReg16 (s : State) (r : RegNum) (v : Word) : State := s.setRegWord (regOffset r) v

/-- `xb[r]`, the low byte of word register `r`, for every `r` (10_state.md R23). -/
def State.reg8 (s : State) (r : RegNum) : Byte := s.regByte (regOffset r)

/-- `xb[r] <- v`: only the low byte changes (10_state.md R23). -/
def State.setReg8 (s : State) (r : RegNum) (v : Byte) : State := s.setRegByte (regOffset r) v

/-- SP, register 4 (10_state.md R22). -/
def State.sp (s : State) : Word := s.reg16 .sp

/-! ### ip, flags and fetch -/

/-- `ip <- target`. -/
def State.setIp (s : State) (target : Word) : State := { s with ip := target }

/-- The three flags written together (40_alu.md R102). -/
def State.setFlags (s : State) (f : Flags) : State := { s with flags := f }

/-- The six bytes from ip on, addresses modulo 2^16. A read has no side effect (20_memory.md R41), so reading to the
longest instruction's length (30_encoding.md R60) fetches what `fetch8()` would (log entry 8). -/
def State.fetchWindow (s : State) : List Byte :=
  [s.readByte s.ip, s.readByte (s.ip + 1), s.readByte (s.ip + 2), s.readByte (s.ip + 3), s.readByte (s.ip + 4),
   s.readByte (s.ip + 5)]

/-- ip after as many bytes as decoding took from the window (30_encoding.md R61). -/
def State.pastFetched (s : State) (rest : List Byte) : State := s.setIp (s.ip + BitVec.ofNat 16 (6 - rest.length))

/-! ### Terminal conditions -/

/-- Raising a terminal condition (00_scope.md R12; 60_exceptions.md R210 to R213): `status` records it, and nothing is
saved, vectored or returned to (R219). A decode abort and a stack fault leave ip unspecified, a free value; a halt and an
unsupported opcode leave it where the fetch has put it. -/
def State.raise (s : State) (c : Status) : State :=
  match c with
  | .aborted _ | .stackFault => { s with status := c, ip := Config.freeIp s.draws, draws := s.draws + 1 }
  | .running | .halted | .unsupported _ => { s with status := c }

/-- What a step does with bytes that are no instruction of the table (60_exceptions.md R211, R212). -/
def State.rejectFetched (s : State) : DecodeError → Outcome
  | .unsupportedOpcode op => .next ((s.setIp (s.ip + 1)).raise (.unsupported op))
  | .badAddressingMode m => .next (s.raise (.aborted (.badAddressingMode m)))
  | .badSubOpcode op reg => .next (s.raise (.aborted (.badSubOpcode op reg)))
  | .truncated => .fault .fetchWindowTooShort

/-! ### The stack helper -/

/-- `push8`: store, then decrement SP (43_stack.md R160). -/
def State.push8 (s : State) (v : Byte) : State := (s.writeByte s.sp v).setReg16 .sp (s.sp - 1)

/-- `push16` after its check: the high byte first (43_stack.md R160). -/
def State.push16 (s : State) (v : Word) : State := (s.push8 (hiByte v)).push8 (loByte v)

/-- `pop8`: increment SP, then load (43_stack.md R161). -/
def State.pop8 (s : State) : Byte × State :=
  let s := s.setReg16 .sp (s.sp + 1)
  (s.readByte s.sp, s)

/-- `pop16` after its check: the low byte first (43_stack.md R161). -/
def State.pop16 (s : State) : Word × State :=
  let (lo, s) := s.pop8
  let (hi, s) := s.pop8
  (cat hi lo, s)

/-- `StackCheck(Push)` raises `StackWrap` (43_stack.md R162). -/
def State.pushFaults (s : State) : Bool := s.params.stackWrap == .fault && (s.sp == 0x0000 || s.sp == 0x0001)

/-- `StackCheck(Pop)` raises `StackWrap` (43_stack.md R162). -/
def State.popFaults (s : State) : Bool := s.params.stackWrap == .fault && (s.sp == 0xFFFE || s.sp == 0xFFFF)

/-- `push16(v)` and what follows it; a faulting check comes before any byte is written or SP changes (43_stack.md R162). -/
def withPush (s : State) (v : Word) (k : State → State) : Outcome :=
  if s.pushFaults then .next (s.raise .stackFault) else .next (k (s.push16 v))

/-- `pop16()` and what follows it; a faulting check comes before SP changes (43_stack.md R162). -/
def withPop (s : State) (k : Word → State → State) : Outcome :=
  if s.popFaults then .next (s.raise .stackFault) else .next (k s.pop16.1 s.pop16.2)

end Sys2Proof.Machine
end

