-- ==== Sys2Proof/Machine/Operands.lean ====
section
/-! DEFINITION. Operand references and the operand resolver (00_scope.md R11; 20_memory.md R46; 30_encoding.md R64). -/

namespace Sys2Proof.Machine

/-- An operand reference: a byte offset in register space or a memory address (00_scope.md R11). -/
inductive Ref where
  | reg (o : RegOff)
  | mem (a : Word)
deriving DecidableEq, Repr

/-- The operand resolver (30_encoding.md R64, R65): none for an undefined (mode, rm) pair. Additions are modulo 2^16. -/
def resolve (rm : RM) (s : State) : Option Ref :=
  match rm with
  | .reg r         => some (.reg (regOffset r))
  | .bxDi          => some (.mem (s.reg16 .bx + s.reg16 .di))
  | .direct d      => some (.mem d)
  | .bx            => some (.mem (s.reg16 .bx))
  | .bpDiDisp d    => some (.mem (s.reg16 .bp + s.reg16 .di + sext16 d))
  | .diDisp d      => some (.mem (s.reg16 .di + d))
  | .bxDisp d      => some (.mem (s.reg16 .bx + d))
  | .undefined _ _ => none

/-- `ReadRef(ref, 1)` (20_memory.md R46). -/
def State.readRef8 (s : State) : Ref → Byte
  | .reg o => s.regByte o
  | .mem a => s.readByte a

/-- `ReadRef(ref, 2)` (20_memory.md R46). -/
def State.readRef16 (s : State) : Ref → Word
  | .reg o => s.regWord o
  | .mem a => s.readWord a

/-- `WriteRef(ref, 1, v)` (20_memory.md R46). -/
def State.writeRef8 (s : State) (ref : Ref) (v : Byte) : State :=
  match ref with
  | .reg o => s.setRegByte o v
  | .mem a => s.writeByte a v

/-- `WriteRef(ref, 2, v)` (20_memory.md R46). -/
def State.writeRef16 (s : State) (ref : Ref) (v : Word) : State :=
  match ref with
  | .reg o => s.setRegWord o v
  | .mem a => s.writeWord a v

/-- `Resolve` and what follows it: an undefined (mode, rm) pair raises `DecodeAbort(BadAddressingMode(m))`, with the whole
ModR/M byte, before anything is read or written (30_encoding.md R64; 60_exceptions.md R212). -/
def withOperand (reg : RegNum) (rm : RM) (s : State) (k : Ref → State) : Outcome :=
  match resolve rm s with
  | some ref => .next (k ref)
  | none => .next (s.raise (.aborted (.badAddressingMode (rm.modRMByte reg))))

end Sys2Proof.Machine
end

