-- ==== Sys2Proof/Machine/Flags.lean ====
section
/-! DEFINITION. The ALU, the increment and decrement function, and every flag computation (40_alu.md R101, R102;
42_incdec.md R150), at either width. -/

namespace Sys2Proof.Machine

/-- What the ALU answers: the value to write back and the three flags (40_alu.md R101). -/
structure AluOut (w : Nat) where
  out   : BitVec w
  flags : Flags
deriving DecidableEq, Repr

/-- ZF and SF of a result, with a given carry: `z <- (r == 0); s <- r[W-1]` (40_alu.md R101). -/
def resultFlags {w : Nat} (r : BitVec w) (c : Bool) : Flags := ⟨c, r == 0, r.msb⟩

/-- The result `r` of an operation before write-back, modulo 2^W (40_alu.md R101). -/
def aluResult {w : Nat} (k : AluOp) (a b : BitVec w) (cin : Bool) : BitVec w :=
  let carry : BitVec w := if cin then 1 else 0
  match k with
  | .add => a + b
  | .or  => a ||| b
  | .adc => a + b + carry
  | .sbb => a - b - carry
  | .and => a &&& b
  | .sub => a - b
  | .xor => a ^^^ b
  | .cmp => a - b

/-- The carry of an operation from its first operand and its result: the unsigned comparison the source makes, not the
carry out of the adder (40_alu.md R101, R107). -/
def aluCarry {w : Nat} (k : AluOp) (a r : BitVec w) : Bool :=
  match k with
  | .add | .adc        => decide (r < a)
  | .sbb | .sub | .cmp => decide (a < r)
  | .or | .and | .xor  => false

/-- The ALU function (40_alu.md R101): CMP hands back its first operand, with the flags of the subtraction (R102, R108). -/
def alu {w : Nat} (k : AluOp) (a b : BitVec w) (cin : Bool) : AluOut w :=
  let r := aluResult k a b cin
  { out := if k = .cmp then a else r, flags := resultFlags r (aluCarry k a r) }

/-- Increment or decrement, as ADD or SUB with 1 (42_incdec.md R150). CF is written or kept as `P_INCDEC_CF` says. -/
def incDec {w : Nat} (dec : Bool) (a : BitVec w) (p : Config.Params) (f : Flags) : AluOut w :=
  let r := if dec then a - 1 else a + 1
  let c := if dec then decide (a < r) else decide (r < a)
  { out := r, flags := resultFlags r (match p.incDecCf with | .recompute => c | .preserve => f.cf) }

/-! ### The conditions of the jumps (30_encoding.md R77) -/

/-- "carry set" (44_control.md R182). -/
def Flags.below (f : Flags) : Bool := f.cf

/-- "zero set" (44_control.md R183). -/
def Flags.zero (f : Flags) : Bool := f.zf

/-- "zero clear" (44_control.md R184). -/
def Flags.notZero (f : Flags) : Bool := !f.zf

/-- "carry-or-zero set" (44_control.md R185). -/
def Flags.belowOrEqual (f : Flags) : Bool := f.cf || f.zf

/-- "neither carry nor zero" (44_control.md R186). -/
def Flags.above (f : Flags) : Bool := !f.cf && !f.zf

/-- "sign clear" (44_control.md R187). -/
def Flags.notSign (f : Flags) : Bool := !f.sf

end Sys2Proof.Machine
end

