-- ==== Sys2Proof/Machine/Alu.lean ====
section
/-! DEFINITION. The eight ALU operations in their seven forms (40_alu.md R112 to R118): the shared form operations, then one
meaning per instruction. An instruction's only exception is the resolver's `DecodeAbort`. -/

namespace Sys2Proof.Machine

/-- ALU r/m8, r8 (40_alu.md R112). -/
def aluRm8Reg (k : AluOp) (dst : RM) (src : RegNum) (s : State) : Outcome :=
  withOperand src dst s fun ref =>
    let r := alu k (s.readRef8 ref) (s.reg8 src) s.flags.cf
    (s.writeRef8 ref r.out).setFlags r.flags

/-- ALU r/m16, r16 (40_alu.md R113). -/
def aluRm16Reg (k : AluOp) (dst : RM) (src : RegNum) (s : State) : Outcome :=
  withOperand src dst s fun ref =>
    let r := alu k (s.readRef16 ref) (s.reg16 src) s.flags.cf
    (s.writeRef16 ref r.out).setFlags r.flags

/-- ALU r8, r/m8 (40_alu.md R114): the first operand is the `reg` register. -/
def aluReg8Rm (k : AluOp) (dst : RegNum) (src : RM) (s : State) : Outcome :=
  withOperand dst src s fun ref =>
    let r := alu k (s.reg8 dst) (s.readRef8 ref) s.flags.cf
    (s.setReg8 dst r.out).setFlags r.flags

/-- ALU r16, r/m16 (40_alu.md R115): the first operand is the `reg` register. -/
def aluReg16Rm (k : AluOp) (dst : RegNum) (src : RM) (s : State) : Outcome :=
  withOperand dst src s fun ref =>
    let r := alu k (s.reg16 dst) (s.readRef16 ref) s.flags.cf
    (s.setReg16 dst r.out).setFlags r.flags

/-- ALU r/m8, imm8 (40_alu.md R116): `reg` holds the operation's code. -/
def aluRm8Imm (k : AluOp) (dst : RM) (imm : Byte) (s : State) : Outcome :=
  withOperand k.code dst s fun ref =>
    let r := alu k (s.readRef8 ref) imm s.flags.cf
    (s.writeRef8 ref r.out).setFlags r.flags

/-- ALU r/m16, imm16 (40_alu.md R117), and the sign-extended imm8 of R118: `reg` holds the operation's code. -/
def aluRm16Imm (k : AluOp) (dst : RM) (imm : Word) (s : State) : Outcome :=
  withOperand k.code dst s fun ref =>
    let r := alu k (s.readRef16 ref) imm s.flags.cf
    (s.writeRef16 ref r.out).setFlags r.flags

/-- ADD r/m8, r8 (40_alu.md R103, R112). -/
def execAddEbGb (dst : RM) (src : RegNum) (s : State) : Outcome := aluRm8Reg .add dst src s

/-- ADD r/m16, r16 (40_alu.md R103, R113). -/
def execAddEvGv (dst : RM) (src : RegNum) (s : State) : Outcome := aluRm16Reg .add dst src s

/-- ADD r8, r/m8 (40_alu.md R103, R114). -/
def execAddGbEb (dst : RegNum) (src : RM) (s : State) : Outcome := aluReg8Rm .add dst src s

/-- ADD r16, r/m16 (40_alu.md R103, R115). -/
def execAddGvEv (dst : RegNum) (src : RM) (s : State) : Outcome := aluReg16Rm .add dst src s

/-- OR r/m8, r8 (40_alu.md R110, R112). -/
def execOrEbGb (dst : RM) (src : RegNum) (s : State) : Outcome := aluRm8Reg .or dst src s

/-- OR r/m16, r16 (40_alu.md R110, R113). -/
def execOrEvGv (dst : RM) (src : RegNum) (s : State) : Outcome := aluRm16Reg .or dst src s

/-- OR r8, r/m8 (40_alu.md R110, R114). -/
def execOrGbEb (dst : RegNum) (src : RM) (s : State) : Outcome := aluReg8Rm .or dst src s

/-- OR r16, r/m16 (40_alu.md R110, R115). -/
def execOrGvEv (dst : RegNum) (src : RM) (s : State) : Outcome := aluReg16Rm .or dst src s

/-- ADC r/m8, r8 (40_alu.md R104, R112). -/
def execAdcEbGb (dst : RM) (src : RegNum) (s : State) : Outcome := aluRm8Reg .adc dst src s

/-- ADC r/m16, r16 (40_alu.md R104, R113). -/
def execAdcEvGv (dst : RM) (src : RegNum) (s : State) : Outcome := aluRm16Reg .adc dst src s

/-- ADC r8, r/m8 (40_alu.md R104, R114). -/
def execAdcGbEb (dst : RegNum) (src : RM) (s : State) : Outcome := aluReg8Rm .adc dst src s

/-- ADC r16, r/m16 (40_alu.md R104, R115). -/
def execAdcGvEv (dst : RegNum) (src : RM) (s : State) : Outcome := aluReg16Rm .adc dst src s

/-- SBB r/m8, r8 (40_alu.md R105, R112). -/
def execSbbEbGb (dst : RM) (src : RegNum) (s : State) : Outcome := aluRm8Reg .sbb dst src s

/-- SBB r/m16, r16 (40_alu.md R105, R113). -/
def execSbbEvGv (dst : RM) (src : RegNum) (s : State) : Outcome := aluRm16Reg .sbb dst src s

/-- SBB r8, r/m8 (40_alu.md R105, R114). -/
def execSbbGbEb (dst : RegNum) (src : RM) (s : State) : Outcome := aluReg8Rm .sbb dst src s

/-- SBB r16, r/m16 (40_alu.md R105, R115). -/
def execSbbGvEv (dst : RegNum) (src : RM) (s : State) : Outcome := aluReg16Rm .sbb dst src s

/-- AND r/m8, r8 (40_alu.md R109, R112). -/
def execAndEbGb (dst : RM) (src : RegNum) (s : State) : Outcome := aluRm8Reg .and dst src s

/-- AND r/m16, r16 (40_alu.md R109, R113). -/
def execAndEvGv (dst : RM) (src : RegNum) (s : State) : Outcome := aluRm16Reg .and dst src s

/-- AND r8, r/m8 (40_alu.md R109, R114). -/
def execAndGbEb (dst : RegNum) (src : RM) (s : State) : Outcome := aluReg8Rm .and dst src s

/-- AND r16, r/m16 (40_alu.md R109, R115). -/
def execAndGvEv (dst : RegNum) (src : RM) (s : State) : Outcome := aluReg16Rm .and dst src s

/-- SUB r/m8, r8 (40_alu.md R106, R112). -/
def execSubEbGb (dst : RM) (src : RegNum) (s : State) : Outcome := aluRm8Reg .sub dst src s

/-- SUB r/m16, r16 (40_alu.md R106, R113). -/
def execSubEvGv (dst : RM) (src : RegNum) (s : State) : Outcome := aluRm16Reg .sub dst src s

/-- SUB r8, r/m8 (40_alu.md R106, R114). -/
def execSubGbEb (dst : RegNum) (src : RM) (s : State) : Outcome := aluReg8Rm .sub dst src s

/-- SUB r16, r/m16 (40_alu.md R106, R115). -/
def execSubGvEv (dst : RegNum) (src : RM) (s : State) : Outcome := aluReg16Rm .sub dst src s

/-- XOR r/m8, r8 (40_alu.md R111, R112). -/
def execXorEbGb (dst : RM) (src : RegNum) (s : State) : Outcome := aluRm8Reg .xor dst src s

/-- XOR r/m16, r16 (40_alu.md R111, R113). -/
def execXorEvGv (dst : RM) (src : RegNum) (s : State) : Outcome := aluRm16Reg .xor dst src s

/-- XOR r8, r/m8 (40_alu.md R111, R114). -/
def execXorGbEb (dst : RegNum) (src : RM) (s : State) : Outcome := aluReg8Rm .xor dst src s

/-- XOR r16, r/m16 (40_alu.md R111, R115). -/
def execXorGvEv (dst : RegNum) (src : RM) (s : State) : Outcome := aluReg16Rm .xor dst src s

/-- CMP r/m8, r8 (40_alu.md R108, R112). -/
def execCmpEbGb (dst : RM) (src : RegNum) (s : State) : Outcome := aluRm8Reg .cmp dst src s

/-- CMP r/m16, r16 (40_alu.md R108, R113). -/
def execCmpEvGv (dst : RM) (src : RegNum) (s : State) : Outcome := aluRm16Reg .cmp dst src s

/-- CMP r8, r/m8 (40_alu.md R108, R114). -/
def execCmpGbEb (dst : RegNum) (src : RM) (s : State) : Outcome := aluReg8Rm .cmp dst src s

/-- CMP r16, r/m16 (40_alu.md R108, R115). -/
def execCmpGvEv (dst : RegNum) (src : RM) (s : State) : Outcome := aluReg16Rm .cmp dst src s

/-- ADD r/m8, imm8 (40_alu.md R103, R116). -/
def execAddEbIb (dst : RM) (imm : Byte) (s : State) : Outcome := aluRm8Imm .add dst imm s

/-- OR r/m8, imm8 (40_alu.md R110, R116). -/
def execOrEbIb (dst : RM) (imm : Byte) (s : State) : Outcome := aluRm8Imm .or dst imm s

/-- ADC r/m8, imm8 (40_alu.md R104, R116). -/
def execAdcEbIb (dst : RM) (imm : Byte) (s : State) : Outcome := aluRm8Imm .adc dst imm s

/-- SBB r/m8, imm8 (40_alu.md R105, R116). -/
def execSbbEbIb (dst : RM) (imm : Byte) (s : State) : Outcome := aluRm8Imm .sbb dst imm s

/-- AND r/m8, imm8 (40_alu.md R109, R116). -/
def execAndEbIb (dst : RM) (imm : Byte) (s : State) : Outcome := aluRm8Imm .and dst imm s

/-- SUB r/m8, imm8 (40_alu.md R106, R116). -/
def execSubEbIb (dst : RM) (imm : Byte) (s : State) : Outcome := aluRm8Imm .sub dst imm s

/-- XOR r/m8, imm8 (40_alu.md R111, R116). -/
def execXorEbIb (dst : RM) (imm : Byte) (s : State) : Outcome := aluRm8Imm .xor dst imm s

/-- CMP r/m8, imm8 (40_alu.md R108, R116). -/
def execCmpEbIb (dst : RM) (imm : Byte) (s : State) : Outcome := aluRm8Imm .cmp dst imm s

/-- ADD r/m16, imm16 (40_alu.md R103, R117). -/
def execAddEvIw (dst : RM) (imm : Word) (s : State) : Outcome := aluRm16Imm .add dst imm s

/-- OR r/m16, imm16 (40_alu.md R110, R117). -/
def execOrEvIw (dst : RM) (imm : Word) (s : State) : Outcome := aluRm16Imm .or dst imm s

/-- ADC r/m16, imm16 (40_alu.md R104, R117). -/
def execAdcEvIw (dst : RM) (imm : Word) (s : State) : Outcome := aluRm16Imm .adc dst imm s

/-- SBB r/m16, imm16 (40_alu.md R105, R117). -/
def execSbbEvIw (dst : RM) (imm : Word) (s : State) : Outcome := aluRm16Imm .sbb dst imm s

/-- AND r/m16, imm16 (40_alu.md R109, R117). -/
def execAndEvIw (dst : RM) (imm : Word) (s : State) : Outcome := aluRm16Imm .and dst imm s

/-- SUB r/m16, imm16 (40_alu.md R106, R117). -/
def execSubEvIw (dst : RM) (imm : Word) (s : State) : Outcome := aluRm16Imm .sub dst imm s

/-- XOR r/m16, imm16 (40_alu.md R111, R117). -/
def execXorEvIw (dst : RM) (imm : Word) (s : State) : Outcome := aluRm16Imm .xor dst imm s

/-- CMP r/m16, imm16 (40_alu.md R108, R117). -/
def execCmpEvIw (dst : RM) (imm : Word) (s : State) : Outcome := aluRm16Imm .cmp dst imm s

/-- ADD r/m16, sign-extended imm8 (40_alu.md R103, R118). -/
def execAddEvSIb (dst : RM) (imm : Byte) (s : State) : Outcome := aluRm16Imm .add dst (sext16 imm) s

/-- OR r/m16, sign-extended imm8 (40_alu.md R110, R118). -/
def execOrEvSIb (dst : RM) (imm : Byte) (s : State) : Outcome := aluRm16Imm .or dst (sext16 imm) s

/-- ADC r/m16, sign-extended imm8 (40_alu.md R104, R118). -/
def execAdcEvSIb (dst : RM) (imm : Byte) (s : State) : Outcome := aluRm16Imm .adc dst (sext16 imm) s

/-- SBB r/m16, sign-extended imm8 (40_alu.md R105, R118). -/
def execSbbEvSIb (dst : RM) (imm : Byte) (s : State) : Outcome := aluRm16Imm .sbb dst (sext16 imm) s

/-- AND r/m16, sign-extended imm8 (40_alu.md R109, R118). -/
def execAndEvSIb (dst : RM) (imm : Byte) (s : State) : Outcome := aluRm16Imm .and dst (sext16 imm) s

/-- SUB r/m16, sign-extended imm8 (40_alu.md R106, R118). -/
def execSubEvSIb (dst : RM) (imm : Byte) (s : State) : Outcome := aluRm16Imm .sub dst (sext16 imm) s

/-- XOR r/m16, sign-extended imm8 (40_alu.md R111, R118). -/
def execXorEvSIb (dst : RM) (imm : Byte) (s : State) : Outcome := aluRm16Imm .xor dst (sext16 imm) s

/-- CMP r/m16, sign-extended imm8 (40_alu.md R108, R118). -/
def execCmpEvSIb (dst : RM) (imm : Byte) (s : State) : Outcome := aluRm16Imm .cmp dst (sext16 imm) s

end Sys2Proof.Machine
end

