-- ==== Sys2Proof/Machine/Control.lean ====
section
/-! DEFINITION. Control transfer (44_control.md R180 to R189). When a meaning runs, ip is already past the instruction's
bytes (30_encoding.md R61), which is the base of every relative target and the return address of CALL. -/

namespace Sys2Proof.Machine

/-- A short jump taken when a condition holds: the signed 8-bit displacement is added to ip modulo 2^16 (44_control.md R180). -/
def jumpIf (taken : Bool) (rel : Byte) (s : State) : Outcome :=
  .next (if taken then s.setIp (s.ip + sext16 rel) else s)

/-- JB rel8: jump if carry set (44_control.md R182). -/
def execJbRel8 (rel : Byte) (s : State) : Outcome := jumpIf s.flags.below rel s

/-- JZ rel8: jump if zero set (44_control.md R183). -/
def execJzRel8 (rel : Byte) (s : State) : Outcome := jumpIf s.flags.zero rel s

/-- JNZ rel8: jump if zero clear (44_control.md R184). -/
def execJnzRel8 (rel : Byte) (s : State) : Outcome := jumpIf s.flags.notZero rel s

/-- JBE rel8: jump if carry or zero set (44_control.md R185). -/
def execJbeRel8 (rel : Byte) (s : State) : Outcome := jumpIf s.flags.belowOrEqual rel s

/-- JA rel8: jump if neither carry nor zero (44_control.md R186). -/
def execJaRel8 (rel : Byte) (s : State) : Outcome := jumpIf s.flags.above rel s

/-- JNS rel8: jump if sign clear (44_control.md R187). -/
def execJnsRel8 (rel : Byte) (s : State) : Outcome := jumpIf s.flags.notSign rel s

/-- JMP rel8 (44_control.md R181). -/
def execJmpRel8 (rel : Byte) (s : State) : Outcome := jumpIf true rel s

/-- CALL rel16 (44_control.md R188): push the address after the CALL, then add the offset modulo 2^16. -/
def execCallRel16 (rel : Word) (s : State) : Outcome := withPush s s.ip fun t => t.setIp (s.ip + rel)

/-- RET (44_control.md R189): pop the instruction pointer. -/
def execRet (s : State) : Outcome := withPop s fun v s => s.setIp v

end Sys2Proof.Machine
end

