-- ==== Sys2Proof/Machine/Exchange.lean ====
section
/-! DEFINITION. XCHG (41_move_exchange.md R138, R139). No form writes a flag (R141). -/

namespace Sys2Proof.Machine

/-- XCHG r/m8, r8 (41_move_exchange.md R138): both operands are read before either is written. -/
def execXchgEbGb (dst : RM) (src : RegNum) (s : State) : Outcome :=
  withOperand src dst s fun ref => (s.writeRef8 ref (s.reg8 src)).setReg8 src (s.readRef8 ref)

/-- XCHG AX, r16 (41_move_exchange.md R139). -/
def xchgAx (r : RegNum) (s : State) : Outcome := .next ((s.setReg16 .ax (s.reg16 r)).setReg16 r (s.reg16 .ax))

/-- XCHG AX, CX, byte 91 (41_move_exchange.md R139). -/
def execXchgAxCx (s : State) : Outcome := xchgAx .cx s

/-- XCHG AX, DX, byte 92 (41_move_exchange.md R139). -/
def execXchgAxDx (s : State) : Outcome := xchgAx .dx s

/-- XCHG AX, BX, byte 93 (41_move_exchange.md R139). -/
def execXchgAxBx (s : State) : Outcome := xchgAx .bx s

/-- XCHG AX, SP, byte 94 (41_move_exchange.md R139). -/
def execXchgAxSp (s : State) : Outcome := xchgAx .sp s

/-- XCHG AX, BP, byte 95 (41_move_exchange.md R139). -/
def execXchgAxBp (s : State) : Outcome := xchgAx .bp s

/-- XCHG AX, SI, byte 96 (41_move_exchange.md R139). -/
def execXchgAxSi (s : State) : Outcome := xchgAx .si s

/-- XCHG AX, DI, byte 97 (41_move_exchange.md R139). -/
def execXchgAxDi (s : State) : Outcome := xchgAx .di s

end Sys2Proof.Machine
end

