-- ==== Sys2Proof/Machine/IncDec.lean ====
section
/-! DEFINITION. Increment and decrement (42_incdec.md). FE with `reg` 2..7 is no instruction: the decoder rejects it and the
step raises its abort (R155). -/

namespace Sys2Proof.Machine

/-- INC or DEC of a word register (42_incdec.md R151, R152). -/
def incDecReg16 (dec : Bool) (r : RegNum) (s : State) : Outcome :=
  let v := incDec dec (s.reg16 r) s.params s.flags
  .next ((s.setReg16 r v.out).setFlags v.flags)

/-- INC or DEC of an r/m byte (42_incdec.md R153, R154): `reg` is the sub-selector. -/
def incDecRm8 (dec : Bool) (reg : RegNum) (dst : RM) (s : State) : Outcome :=
  withOperand reg dst s fun ref =>
    let v := incDec dec (s.readRef8 ref) s.params s.flags
    (s.writeRef8 ref v.out).setFlags v.flags

/-- INC r16 (42_incdec.md R151). -/
def execIncR16 (r : RegNum) (s : State) : Outcome := incDecReg16 false r s

/-- DEC r16 (42_incdec.md R152). -/
def execDecR16 (r : RegNum) (s : State) : Outcome := incDecReg16 true r s

/-- INC r/m8, FE /0 (42_incdec.md R153). -/
def execIncEb (dst : RM) (s : State) : Outcome := incDecRm8 false 0 dst s

/-- DEC r/m8, FE /1 (42_incdec.md R154). -/
def execDecEb (dst : RM) (s : State) : Outcome := incDecRm8 true 1 dst s

end Sys2Proof.Machine
end

