-- ==== Sys2Proof/Machine/Misc.lean ====
section
/-! DEFINITION. No-op, set-carry and halt (45_misc.md R200 to R202). -/

namespace Sys2Proof.Machine

/-- NOP (45_misc.md R200): nothing beyond the fetch. -/
def execNop (s : State) : Outcome := .next s

/-- STC (45_misc.md R201): CF becomes 1, ZF and SF keep their values. -/
def execStc (s : State) : Outcome := .next (s.setFlags { s.flags with cf := true })

/-- HLT (45_misc.md R202): a terminal condition, with ip at the address after the HLT. -/
def execHlt (s : State) : Outcome := .next (s.raise .halted)

end Sys2Proof.Machine
end

