-- ==== Sys2Proof/Machine/Move.lean ====
section
/-! DEFINITION. MOV (41_move_exchange.md R130 to R137). No form writes a flag (R141). C6 and C7 with `reg` 1..7 are no
instruction: the decoder rejects them and the step raises their abort (30_encoding.md R72). -/

namespace Sys2Proof.Machine

/-- MOV r/m8, r8 (41_move_exchange.md R130). -/
def execMovEbGb (dst : RM) (src : RegNum) (s : State) : Outcome :=
  withOperand src dst s fun ref => s.writeRef8 ref (s.reg8 src)

/-- MOV r/m16, r16 (41_move_exchange.md R131). -/
def execMovEvGv (dst : RM) (src : RegNum) (s : State) : Outcome :=
  withOperand src dst s fun ref => s.writeRef16 ref (s.reg16 src)

/-- MOV r8, r/m8 (41_move_exchange.md R132). -/
def execMovGbEb (dst : RegNum) (src : RM) (s : State) : Outcome :=
  withOperand dst src s fun ref => s.setReg8 dst (s.readRef8 ref)

/-- MOV r16, r/m16 (41_move_exchange.md R133). -/
def execMovGvEv (dst : RegNum) (src : RM) (s : State) : Outcome :=
  withOperand dst src s fun ref => s.setReg16 dst (s.readRef16 ref)

/-- MOV r8, imm8 (41_move_exchange.md R134): the high byte of the register keeps its value. -/
def execMovR8Ib (r : RegNum) (imm : Byte) (s : State) : Outcome := .next (s.setReg8 r imm)

/-- MOV r16, imm16 (41_move_exchange.md R135). -/
def execMovR16Iw (r : RegNum) (imm : Word) (s : State) : Outcome := .next (s.setReg16 r imm)

/-- MOV r/m8, imm8, C6 /0 (41_move_exchange.md R136). -/
def execMovEbIb (dst : RM) (imm : Byte) (s : State) : Outcome :=
  withOperand 0 dst s fun ref => s.writeRef8 ref imm

/-- MOV r/m16, imm16, C7 /0 (41_move_exchange.md R137). -/
def execMovEvIw (dst : RM) (imm : Word) (s : State) : Outcome :=
  withOperand 0 dst s fun ref => s.writeRef16 ref imm

end Sys2Proof.Machine
end

