-- ==== Sys2Proof/Machine/Stack.lean ====
section
/-! DEFINITION. PUSH and POP (43_stack.md R164 to R167) over the stack helper of Ops.lean. -/

namespace Sys2Proof.Machine

/-- PUSH r16 (43_stack.md R164): the register is read before the push, so PUSH SP pushes the old SP (R166). -/
def execPushR16 (r : RegNum) (s : State) : Outcome := withPush s (s.reg16 r) id

/-- POP r16 (43_stack.md R165): the register is written after the pop, so POP SP leaves the popped word in SP (R167). -/
def execPopR16 (r : RegNum) (s : State) : Outcome := withPop s fun v s => s.setReg16 r v

end Sys2Proof.Machine
end

