-- ==== Sys2Proof/Machine/Dispatch.lean ====
section
/-! DEFINITION. exec: one arm per constructor of Instr, each one direct call of that instruction's meaning (30_encoding.md
R69, R78). -/

namespace Sys2Proof.Machine

def exec (i : Instr) (s : State) : Host.Outcome State Fault Refusal :=
  match i with
  | .addEbGb dst src => Sys2Proof.Machine.execAddEbGb dst src s
  | .addEvGv dst src => Sys2Proof.Machine.execAddEvGv dst src s
  | .addGbEb dst src => Sys2Proof.Machine.execAddGbEb dst src s
  | .addGvEv dst src => Sys2Proof.Machine.execAddGvEv dst src s
  | .orEbGb dst src => Sys2Proof.Machine.execOrEbGb dst src s
  | .orEvGv dst src => Sys2Proof.Machine.execOrEvGv dst src s
  | .orGbEb dst src => Sys2Proof.Machine.execOrGbEb dst src s
  | .orGvEv dst src => Sys2Proof.Machine.execOrGvEv dst src s
  | .adcEbGb dst src => Sys2Proof.Machine.execAdcEbGb dst src s
  | .adcEvGv dst src => Sys2Proof.Machine.execAdcEvGv dst src s
  | .adcGbEb dst src => Sys2Proof.Machine.execAdcGbEb dst src s
  | .adcGvEv dst src => Sys2Proof.Machine.execAdcGvEv dst src s
  | .sbbEbGb dst src => Sys2Proof.Machine.execSbbEbGb dst src s
  | .sbbEvGv dst src => Sys2Proof.Machine.execSbbEvGv dst src s
  | .sbbGbEb dst src => Sys2Proof.Machine.execSbbGbEb dst src s
  | .sbbGvEv dst src => Sys2Proof.Machine.execSbbGvEv dst src s
  | .andEbGb dst src => Sys2Proof.Machine.execAndEbGb dst src s
  | .andEvGv dst src => Sys2Proof.Machine.execAndEvGv dst src s
  | .andGbEb dst src => Sys2Proof.Machine.execAndGbEb dst src s
  | .andGvEv dst src => Sys2Proof.Machine.execAndGvEv dst src s
  | .subEbGb dst src => Sys2Proof.Machine.execSubEbGb dst src s
  | .subEvGv dst src => Sys2Proof.Machine.execSubEvGv dst src s
  | .subGbEb dst src => Sys2Proof.Machine.execSubGbEb dst src s
  | .subGvEv dst src => Sys2Proof.Machine.execSubGvEv dst src s
  | .xorEbGb dst src => Sys2Proof.Machine.execXorEbGb dst src s
  | .xorEvGv dst src => Sys2Proof.Machine.execXorEvGv dst src s
  | .xorGbEb dst src => Sys2Proof.Machine.execXorGbEb dst src s
  | .xorGvEv dst src => Sys2Proof.Machine.execXorGvEv dst src s
  | .cmpEbGb dst src => Sys2Proof.Machine.execCmpEbGb dst src s
  | .cmpEvGv dst src => Sys2Proof.Machine.execCmpEvGv dst src s
  | .cmpGbEb dst src => Sys2Proof.Machine.execCmpGbEb dst src s
  | .cmpGvEv dst src => Sys2Proof.Machine.execCmpGvEv dst src s
  | .addEbIb dst imm => Sys2Proof.Machine.execAddEbIb dst imm s
  | .orEbIb dst imm => Sys2Proof.Machine.execOrEbIb dst imm s
  | .adcEbIb dst imm => Sys2Proof.Machine.execAdcEbIb dst imm s
  | .sbbEbIb dst imm => Sys2Proof.Machine.execSbbEbIb dst imm s
  | .andEbIb dst imm => Sys2Proof.Machine.execAndEbIb dst imm s
  | .subEbIb dst imm => Sys2Proof.Machine.execSubEbIb dst imm s
  | .xorEbIb dst imm => Sys2Proof.Machine.execXorEbIb dst imm s
  | .cmpEbIb dst imm => Sys2Proof.Machine.execCmpEbIb dst imm s
  | .addEvIw dst imm => Sys2Proof.Machine.execAddEvIw dst imm s
  | .orEvIw dst imm => Sys2Proof.Machine.execOrEvIw dst imm s
  | .adcEvIw dst imm => Sys2Proof.Machine.execAdcEvIw dst imm s
  | .sbbEvIw dst imm => Sys2Proof.Machine.execSbbEvIw dst imm s
  | .andEvIw dst imm => Sys2Proof.Machine.execAndEvIw dst imm s
  | .subEvIw dst imm => Sys2Proof.Machine.execSubEvIw dst imm s
  | .xorEvIw dst imm => Sys2Proof.Machine.execXorEvIw dst imm s
  | .cmpEvIw dst imm => Sys2Proof.Machine.execCmpEvIw dst imm s
  | .addEvSIb dst imm => Sys2Proof.Machine.execAddEvSIb dst imm s
  | .orEvSIb dst imm => Sys2Proof.Machine.execOrEvSIb dst imm s
  | .adcEvSIb dst imm => Sys2Proof.Machine.execAdcEvSIb dst imm s
  | .sbbEvSIb dst imm => Sys2Proof.Machine.execSbbEvSIb dst imm s
  | .andEvSIb dst imm => Sys2Proof.Machine.execAndEvSIb dst imm s
  | .subEvSIb dst imm => Sys2Proof.Machine.execSubEvSIb dst imm s
  | .xorEvSIb dst imm => Sys2Proof.Machine.execXorEvSIb dst imm s
  | .cmpEvSIb dst imm => Sys2Proof.Machine.execCmpEvSIb dst imm s
  | .incR16 r => Sys2Proof.Machine.execIncR16 r s
  | .decR16 r => Sys2Proof.Machine.execDecR16 r s
  | .pushR16 r => Sys2Proof.Machine.execPushR16 r s
  | .popR16 r => Sys2Proof.Machine.execPopR16 r s
  | .movEbGb dst src => Sys2Proof.Machine.execMovEbGb dst src s
  | .movEvGv dst src => Sys2Proof.Machine.execMovEvGv dst src s
  | .movGbEb dst src => Sys2Proof.Machine.execMovGbEb dst src s
  | .movGvEv dst src => Sys2Proof.Machine.execMovGvEv dst src s
  | .movR8Ib r imm => Sys2Proof.Machine.execMovR8Ib r imm s
  | .movR16Iw r imm => Sys2Proof.Machine.execMovR16Iw r imm s
  | .movEbIb dst imm => Sys2Proof.Machine.execMovEbIb dst imm s
  | .movEvIw dst imm => Sys2Proof.Machine.execMovEvIw dst imm s
  | .xchgEbGb dst src => Sys2Proof.Machine.execXchgEbGb dst src s
  | .xchgAxCx => Sys2Proof.Machine.execXchgAxCx s
  | .xchgAxDx => Sys2Proof.Machine.execXchgAxDx s
  | .xchgAxBx => Sys2Proof.Machine.execXchgAxBx s
  | .xchgAxSp => Sys2Proof.Machine.execXchgAxSp s
  | .xchgAxBp => Sys2Proof.Machine.execXchgAxBp s
  | .xchgAxSi => Sys2Proof.Machine.execXchgAxSi s
  | .xchgAxDi => Sys2Proof.Machine.execXchgAxDi s
  | .incEb dst => Sys2Proof.Machine.execIncEb dst s
  | .decEb dst => Sys2Proof.Machine.execDecEb dst s
  | .jbRel8 rel => Sys2Proof.Machine.execJbRel8 rel s
  | .jzRel8 rel => Sys2Proof.Machine.execJzRel8 rel s
  | .jnzRel8 rel => Sys2Proof.Machine.execJnzRel8 rel s
  | .jbeRel8 rel => Sys2Proof.Machine.execJbeRel8 rel s
  | .jaRel8 rel => Sys2Proof.Machine.execJaRel8 rel s
  | .jnsRel8 rel => Sys2Proof.Machine.execJnsRel8 rel s
  | .jmpRel8 rel => Sys2Proof.Machine.execJmpRel8 rel s
  | .callRel16 rel => Sys2Proof.Machine.execCallRel16 rel s
  | .ret => Sys2Proof.Machine.execRet s
  | .nop => Sys2Proof.Machine.execNop s
  | .stc => Sys2Proof.Machine.execStc s
  | .hlt => Sys2Proof.Machine.execHlt s

end Sys2Proof.Machine
end

