-- ==== Sys2Proof/Machine/Step.lean ====
section
/-! DEFINITION. One step of the execution controller (30_encoding.md R78), and the host's way of placing one instruction. -/

namespace Sys2Proof.Machine

/-- `Step()` (30_encoding.md R78): nothing from a terminal status; otherwise fetch, decode and run, with ip moved past the
instruction's bytes before its meaning runs (R61). -/
def step (s : State) : Host.Outcome State Fault Refusal :=
  if s.status = .running then
    match decode s.fetchWindow with
    | .ok (i, rest) => exec i (s.pastFetched rest)
    | .error e => s.rejectFetched e
  else .next s

/-- The instruction whose table word is `w`, placed where the next step fetches: its bytes, then zeros to six bytes, from
ip on, and status `Running`, without which nothing is fetched (log entry 9). -/
def State.withFetchWord (s : State) (nbits w : Nat) : State :=
  { s with status := .running }.placeBytes s.ip (tableWordBytes nbits w)

end Sys2Proof.Machine
end

