-- ==== Sys2Proof/Machine/HostPort.lean ====
section
/-! DEFINITION. What the host does with the block (70_reset_and_hazards.md R241 to R245): load an image, run and count
steps, read the display window. `Reset` is `State.resetWith`; `Step` is `step`; `Observe` is reading the fields of `State`
between steps (R244). None of it is part of a step. -/

namespace Sys2Proof.Machine

/-- `Load(image)` (70_reset_and_hazards.md R241): the image's bytes from address 0x0000, truncated to 65536. -/
def State.load (s : State) (image : List Byte) : State := s.placeBytes 0 (image.take 65536)

/-- Running for at most `fuel` steps, until the status is terminal (70_reset_and_hazards.md R242), with the number of
`Step` calls made while `Running` (R243). A fault or a refusal, which no step answers, would end the run too. -/
def runCounted : Nat → State → State × Nat
  | 0, s => (s, 0)
  | fuel + 1, s =>
    if s.status = .running then
      match step s with
      | .next t =>
        match runCounted fuel t with
        | (u, n) => (u, n + 1)
      | .fault _ | .refused _ => (s, 1)
    else (s, 0)

/-- The status codes (10_state.md R31; 60_exceptions.md R210). -/
def Status.code : Status → Nat
  | .running => 0
  | .halted => 1
  | .unsupported _ => 2
  | .aborted _ => 3
  | .stackFault => 4

/-- The status output: the code, and the offending opcode byte of an unsupported opcode (00_scope.md R7; 60_exceptions.md
R211, R216). DESIGN CHOICE (log entry 13, safe): an abort puts out its code 3 alone. The spec leaves open whether its `info`
(10_state.md R31) is put out too: R7 names only the opcode byte. The host can read `info` in `State.status` (R244). -/
def State.statusOutput (s : State) : Nat × Option Byte :=
  match s.status with
  | .unsupported op => (s.status.code, some op)
  | .running | .halted | .aborted _ | .stackFault => (s.status.code, none)

/-- The address of a cell of the 80 × 25 display window at 0x8000 (70_reset_and_hazards.md R245). -/
def displayAddress (row col : Nat) : Word := BitVec.ofNat 16 (0x8000 + 80 * row + col)

/-- A cell of the display window as a character: a zero byte is a space, another byte what `P_DISPLAY_CHAR` says
(70_reset_and_hazards.md R245; 00_scope.md R6). -/
def State.displayCell (displayChar : Byte → Char) (s : State) (row col : Nat) : Char :=
  let b := s.readByte (displayAddress row col)
  if b = 0 then ' ' else displayChar b

/-- The 25 lines of 80 characters (70_reset_and_hazards.md R245). -/
def State.displayLines (displayChar : Byte → Char) (s : State) : List (List Char) :=
  (List.range 25).map fun row => (List.range 80).map fun col => s.displayCell displayChar row col

/-- The completion output: after a graceful stop the window, otherwise none (60_exceptions.md R216;
70_reset_and_hazards.md R245). -/
def State.completionOutput (displayChar : Byte → Char) (s : State) : Option (List (List Char)) :=
  match s.status with
  | .halted | .unsupported _ => some (s.displayLines displayChar)
  | .running | .aborted _ | .stackFault => none

end Sys2Proof.Machine
end

