-- ==== Sys2Proof/Safety.lean ====
section
/-! DEFINITION. The terms the statements use: what a step may leave unchanged (frames), which statuses a run can reach, and
the invariant of the machine. -/

namespace Sys2Proof.Machine

/-! ### Frames -/

/-- Registers, flags and memory read as before (60_exceptions.md R212, R215). -/
def SameData (s t : State) : Prop :=
  (∀ o, t.regByte o = s.regByte o) ∧ (∀ a, t.readByte a = s.readByte a) ∧ t.flags = s.flags

/-- From `s` to `t` only the named bytes of register space and of memory may read otherwise, the status is the same, and so
are the model's own fields. Flags and ip are not part of it: each statement says what they become. -/
def Frame (s t : State) (regs : List RegOff) (addrs : List Word) : Prop :=
  (∀ o, o ∉ regs → t.regByte o = s.regByte o) ∧ (∀ a, a ∉ addrs → t.readByte a = s.readByte a) ∧
  t.status = s.status ∧ t.params = s.params ∧ t.draws = s.draws

/-- The byte of register `r` that an 8-bit write changes (10_state.md R23). -/
def regBytes8 (r : RegNum) : List RegOff := [regOffset r]

/-- The two bytes of word register `r` (10_state.md R21). -/
def regBytes16 (r : RegNum) : List RegOff := [regOffset r, regOffset r + 1]

/-- The bytes of register space that a write through a reference changes, at 8 and at 16 bits (20_memory.md R46). -/
def Ref.regBytes8 : Ref → List RegOff
  | .reg o => [o]
  | .mem _ => []

def Ref.regBytes16 : Ref → List RegOff
  | .reg o => [o, o + 1]
  | .mem _ => []

/-- The bytes of memory that a write through a reference changes, at 8 and at 16 bits (20_memory.md R42, R46). -/
def Ref.memBytes8 : Ref → List Word
  | .reg _ => []
  | .mem a => [a]

def Ref.memBytes16 : Ref → List Word
  | .reg _ => []
  | .mem a => [a, a + 1]

/-! ### Statuses and the invariant -/

/-- The status is one that leaves ip unspecified (60_exceptions.md R212, R213; 70_reset_and_hazards.md R252). -/
def Status.leavesIpOpen : Status → Bool
  | .aborted _ | .stackFault => true
  | .running | .halted | .unsupported _ => false

/-- The status is one that the block can record, with the value recorded being one that causes it (60_exceptions.md R210):
an opcode outside the map, an undefined (mode, rm) pair, an undefined selector of FE, C6 or C7, and a stack fault only under
`P_STACK_WRAP = Fault` (R213). -/
def Status.legal (p : Config.Params) : Status → Bool
  | .running | .halted => true
  | .unsupported op => formOf op == none
  | .aborted (.badAddressingMode m) => !definedMode (modeField m) (rmField m)
  | .aborted (.badSubOpcode op reg) => (op == 0xFE && reg != 0 && reg != 1) || ((op == 0xC6 || op == 0xC7) && reg != 0)
  | .stackFault => p.stackWrap == .fault

/-- The invariant: memory is in its canonical form and the status is a legal one. -/
def State.Inv (s : State) : Prop := s.mem.wf = true ∧ s.status.legal s.params = true

/-- A clean end of a run: the halt opcode (60_exceptions.md R210; 93_implementation_defined.md U5). -/
def State.HaltedCleanly (s : State) : Prop := s.status = .halted

end Sys2Proof.Machine
end

