-- ==== Sys2Proof/Certificates/Slice0/Obligations.lean ====
section
/-! DEFINITION. The statements for the provers, with the spec's own tables and formulas where a statement needs them (they
are written from the spec's text, apart from the model's definitions). -/

namespace Sys2Proof.Spec

open Sys2Proof.Machine

/-- The 146 unsupported opcode bytes, as 30_encoding.md R70 lists them. -/
def unsupportedOpcodes : List Byte :=
  [0x04, 0x05, 0x06, 0x07, 0x0C, 0x0D, 0x0E, 0x0F, 0x14, 0x15, 0x16, 0x17, 0x1C, 0x1D, 0x1E, 0x1F, 0x24, 0x25, 0x26, 0x27,
   0x2C, 0x2D, 0x2E, 0x2F] ++
  [0x34, 0x35, 0x36, 0x37, 0x3C, 0x3D, 0x3E, 0x3F, 0x60, 0x61, 0x62, 0x63, 0x64, 0x65, 0x66, 0x67, 0x68, 0x69, 0x6A, 0x6B,
   0x6C, 0x6D, 0x6E, 0x6F] ++
  [0x70, 0x71, 0x73, 0x78, 0x7A, 0x7B, 0x7C, 0x7D, 0x7E, 0x7F, 0x82, 0x84, 0x85, 0x87, 0x8C, 0x8D, 0x8E, 0x8F, 0x98, 0x99,
   0x9A, 0x9B, 0x9C, 0x9D] ++
  [0x9E, 0x9F, 0xA0, 0xA1, 0xA2, 0xA3, 0xA4, 0xA5, 0xA6, 0xA7, 0xA8, 0xA9, 0xAA, 0xAB, 0xAC, 0xAD, 0xAE, 0xAF, 0xC0, 0xC1,
   0xC2, 0xC4, 0xC5, 0xC8] ++
  [0xC9, 0xCA, 0xCB, 0xCC, 0xCD, 0xCE, 0xCF, 0xD0, 0xD1, 0xD2, 0xD3, 0xD4, 0xD5, 0xD6, 0xD7, 0xD8, 0xD9, 0xDA, 0xDB, 0xDC,
   0xDD, 0xDE, 0xDF, 0xE0] ++
  [0xE1, 0xE2, 0xE3, 0xE4, 0xE5, 0xE6, 0xE7, 0xE9, 0xEA, 0xEC, 0xED, 0xEE, 0xEF, 0xF0, 0xF1, 0xF2, 0xF3, 0xF5, 0xF6, 0xF7,
   0xF8, 0xFA, 0xFB, 0xFC] ++
  [0xFD, 0xFF]

/-- `op` lies in a range of opcode bytes. -/
def between (op : Byte) (lo hi : Nat) : Bool := decide (lo ≤ op.toNat) && decide (op.toNat ≤ hi)

/-- `has_modrm(op)` (30_encoding.md R71). -/
def hasModRM (op : Byte) : Bool :=
  between op 0x00 0x03 || between op 0x08 0x0B || between op 0x10 0x13 || between op 0x18 0x1B || between op 0x20 0x23 ||
  between op 0x28 0x2B || between op 0x30 0x33 || between op 0x38 0x3B ||
  [0x80, 0x81, 0x83, 0x86, 0x88, 0x89, 0x8A, 0x8B, 0xC6, 0xC7, 0xFE].contains op

/-- `disp_len(m)` (30_encoding.md R71). -/
def dispLen (m : Byte) : Nat :=
  let mode := m.toNat / 64
  let rm := m.toNat % 8
  if mode = 0 ∧ rm = 6 then 2 else if mode = 1 ∧ rm = 3 then 1 else if mode = 2 ∧ (rm = 5 ∨ rm = 7) then 2 else 0

/-- `imm_len(op)` (30_encoding.md R71). -/
def immLen (op : Byte) : Nat :=
  if [0x80, 0x83, 0xC6, 0x72, 0x74, 0x75, 0x76, 0x77, 0x79, 0xEB].contains op || between op 0xB0 0xB7 then 1
  else if [0x81, 0xC7, 0xE8].contains op || between op 0xB8 0xBF then 2
  else 0

/-- `length(op, m)` (30_encoding.md R71). -/
def instrLength (op m : Byte) : Nat := 1 + (if hasModRM op then 1 + dispLen m else 0) + immLen op

/-- A ModR/M byte is legal: its (mode, rm) pair is one of those the table of 30_encoding.md R64 gives. -/
def legalModRM (m : Byte) : Prop :=
  m.toNat / 64 = 3 ∨ (m.toNat / 64, m.toNat % 8) ∈ [(0, 1), (0, 6), (0, 7), (1, 3), (2, 5), (2, 7)]

/-- The `reg` field of a ModR/M byte selects nothing: FE /2..7, C6 /1..7, C7 /1..7 (30_encoding.md R72). -/
def badSelectorOf (op m : Byte) : Prop :=
  (op = 0xFE ∧ 2 ≤ m.toNat / 8 % 8) ∨ ((op = 0xC6 ∨ op = 0xC7) ∧ 1 ≤ m.toNat / 8 % 8)

/-- The step ends in `Aborted(info)` with registers, flags and memory as before (60_exceptions.md R212). ip is not named. -/
def EndsAborted (info : AbortInfo) (s : State) (o : Outcome) : Prop :=
  ∃ t, o = .next t ∧ t.status = .aborted info ∧ SameData s t ∧ t.params = s.params

/-- The step ends in `StackFault` with registers, flags and memory as before (60_exceptions.md R213). ip is not named. -/
def EndsStackFault (s : State) (o : Outcome) : Prop :=
  ∃ t, o = .next t ∧ t.status = .stackFault ∧ SameData s t ∧ t.params = s.params

/-- The wrapped result `r` of an ALU operation on unsigned numbers below `2^w` (40_alu.md R101, R9). -/
def aluNumber (k : AluOp) (w a b cin : Nat) : Int :=
  match k with
  | .add => (a + b : Int) % 2 ^ w
  | .or  => ((a ||| b : Nat) : Int)
  | .adc => (a + b + cin : Int) % 2 ^ w
  | .sbb => (a - b - cin : Int) % 2 ^ w
  | .and => ((a &&& b : Nat) : Int)
  | .sub => (a - b : Int) % 2 ^ w
  | .xor => ((a ^^^ b : Nat) : Int)
  | .cmp => (a - b : Int) % 2 ^ w

/-- The carry of an ALU operation by the comparison the source states (40_alu.md R101). -/
def aluNumberCarry (k : AluOp) (a : Nat) (r : Int) : Bool :=
  match k with
  | .add | .adc        => decide (r < a)
  | .sbb | .sub | .cmp => decide (r > a)
  | .or | .and | .xor  => false

/-- The true result `t` before wrapping, for the five arithmetic operations (40_alu.md R107). -/
def trueResult (k : AluOp) (a b cin : Nat) : Option Int :=
  match k with
  | .add => some (a + b)
  | .adc => some (a + b + cin)
  | .sbb => some (a - b - cin)
  | .sub => some (a - b)
  | .cmp => some (a - b)
  | .or | .and | .xor => none

/-- The eight instructions of each ALU form, by their operation (40_alu.md R100, R112 to R118). -/
def formsEbGb : List (AluOp × (RM → RegNum → Instr)) :=
  [(.add, .addEbGb), (.or, .orEbGb), (.adc, .adcEbGb), (.sbb, .sbbEbGb), (.and, .andEbGb), (.sub, .subEbGb),
   (.xor, .xorEbGb), (.cmp, .cmpEbGb)]

def formsEvGv : List (AluOp × (RM → RegNum → Instr)) :=
  [(.add, .addEvGv), (.or, .orEvGv), (.adc, .adcEvGv), (.sbb, .sbbEvGv), (.and, .andEvGv), (.sub, .subEvGv),
   (.xor, .xorEvGv), (.cmp, .cmpEvGv)]

def formsGbEb : List (AluOp × (RegNum → RM → Instr)) :=
  [(.add, .addGbEb), (.or, .orGbEb), (.adc, .adcGbEb), (.sbb, .sbbGbEb), (.and, .andGbEb), (.sub, .subGbEb),
   (.xor, .xorGbEb), (.cmp, .cmpGbEb)]

def formsGvEv : List (AluOp × (RegNum → RM → Instr)) :=
  [(.add, .addGvEv), (.or, .orGvEv), (.adc, .adcGvEv), (.sbb, .sbbGvEv), (.and, .andGvEv), (.sub, .subGvEv),
   (.xor, .xorGvEv), (.cmp, .cmpGvEv)]

def formsEbIb : List (AluOp × (RM → Byte → Instr)) :=
  [(.add, .addEbIb), (.or, .orEbIb), (.adc, .adcEbIb), (.sbb, .sbbEbIb), (.and, .andEbIb), (.sub, .subEbIb),
   (.xor, .xorEbIb), (.cmp, .cmpEbIb)]

def formsEvIw : List (AluOp × (RM → Word → Instr)) :=
  [(.add, .addEvIw), (.or, .orEvIw), (.adc, .adcEvIw), (.sbb, .sbbEvIw), (.and, .andEvIw), (.sub, .subEvIw),
   (.xor, .xorEvIw), (.cmp, .cmpEvIw)]

def formsEvSIb : List (AluOp × (RM → Byte → Instr)) :=
  [(.add, .addEvSIb), (.or, .orEvSIb), (.adc, .adcEvSIb), (.sbb, .sbbEvSIb), (.and, .andEvSIb), (.sub, .subEvSIb),
   (.xor, .xorEvSIb), (.cmp, .cmpEvSIb)]

/-- The 3-bit code of an operation, as the table of 40_alu.md R100 gives it. -/
def aluCode (k : AluOp) : RegNum :=
  match k with
  | .add => 0 | .or => 1 | .adc => 2 | .sbb => 3 | .and => 4 | .sub => 5 | .xor => 6 | .cmp => 7

/-- The short jumps with the condition each is taken on (44_control.md R181 to R187). -/
def shortJumps : List ((Byte → Instr) × Byte × (Flags → Bool)) :=
  [(.jbRel8, 0x72, fun f => f.cf), (.jzRel8, 0x74, fun f => f.zf), (.jnzRel8, 0x75, fun f => !f.zf),
   (.jbeRel8, 0x76, fun f => f.cf || f.zf), (.jaRel8, 0x77, fun f => !(f.cf || f.zf)), (.jnsRel8, 0x79, fun f => !f.sf),
   (.jmpRel8, 0xEB, fun _ => true)]

/-- XCHG AX, r16 by its register (41_move_exchange.md R139). -/
def xchgAxForms : List (Instr × RegNum) :=
  [(.xchgAxCx, .cx), (.xchgAxDx, .dx), (.xchgAxBx, .bx), (.xchgAxSp, .sp), (.xchgAxBp, .bp), (.xchgAxSi, .si),
   (.xchgAxDi, .di)]

/-- The two bytes of SP. -/
def spBytes : List RegOff := [8, 9]

/-- A push is not checked, or SP is none of the values the check names (43_stack.md R162). -/
def pushAllowed (s : State) : Prop := s.params.stackWrap = .wrap ∨ (s.sp ≠ 0x0000 ∧ s.sp ≠ 0x0001)

/-- A pop is not checked, or SP is none of the values the check names (43_stack.md R162). -/
def popAllowed (s : State) : Prop := s.params.stackWrap = .wrap ∨ (s.sp ≠ 0xFFFE ∧ s.sp ≠ 0xFFFF)

/-- `incdec(dec, W, a)` on numbers and "apply flags" (42_incdec.md R150). -/
def incDecNumber (dec : Bool) (w a : Nat) : Nat := if dec then (a + 2 ^ w - 1) % 2 ^ w else (a + 1) % 2 ^ w

/-- The flags after INC or DEC of a `w`-bit value `a` (42_incdec.md R150). -/
def incDecFlags (dec : Bool) (w a : Nat) (p : Config.Params) (f : Flags) : Flags :=
  let r := incDecNumber dec w a
  { cf := match p.incDecCf with
      | .recompute => if dec then decide (a = 0) else decide (a = 2 ^ w - 1)
      | .preserve => f.cf,
    zf := decide (r = 0),
    sf := decide (2 ^ (w - 1) ≤ r) }

/-- What an instruction is to the flags (10_state.md R28). -/
inductive FlagUse where
  | writesAll      -- the 8 ALU operations, INC and DEC
  | setsCarry      -- STC
  | writesNone     -- every other instruction
deriving DecidableEq, Repr

/-- How an instruction's own run can end (60_exceptions.md R210; the Exceptions entries of 40 to 45). -/
inductive Ending where
  | running                -- no exception
  | runningOrBadMode       -- the resolver's DecodeAbort
  | runningOrStackFault    -- StackWrap
  | halted                 -- HLT
deriving DecidableEq, Repr

/-- 10_state.md R28, instruction by instruction. -/
def flagUse : Instr → FlagUse
  | .addEbGb _ _ | .addEvGv _ _ | .addGbEb _ _ | .addGvEv _ _ | .addEbIb _ _ | .addEvIw _ _ | .addEvSIb _ _ => .writesAll
  | .orEbGb _ _ | .orEvGv _ _ | .orGbEb _ _ | .orGvEv _ _ | .orEbIb _ _ | .orEvIw _ _ | .orEvSIb _ _ => .writesAll
  | .adcEbGb _ _ | .adcEvGv _ _ | .adcGbEb _ _ | .adcGvEv _ _ | .adcEbIb _ _ | .adcEvIw _ _ | .adcEvSIb _ _ => .writesAll
  | .sbbEbGb _ _ | .sbbEvGv _ _ | .sbbGbEb _ _ | .sbbGvEv _ _ | .sbbEbIb _ _ | .sbbEvIw _ _ | .sbbEvSIb _ _ => .writesAll
  | .andEbGb _ _ | .andEvGv _ _ | .andGbEb _ _ | .andGvEv _ _ | .andEbIb _ _ | .andEvIw _ _ | .andEvSIb _ _ => .writesAll
  | .subEbGb _ _ | .subEvGv _ _ | .subGbEb _ _ | .subGvEv _ _ | .subEbIb _ _ | .subEvIw _ _ | .subEvSIb _ _ => .writesAll
  | .xorEbGb _ _ | .xorEvGv _ _ | .xorGbEb _ _ | .xorGvEv _ _ | .xorEbIb _ _ | .xorEvIw _ _ | .xorEvSIb _ _ => .writesAll
  | .cmpEbGb _ _ | .cmpEvGv _ _ | .cmpGbEb _ _ | .cmpGvEv _ _ | .cmpEbIb _ _ | .cmpEvIw _ _ | .cmpEvSIb _ _ => .writesAll
  | .incR16 _ | .decR16 _ | .incEb _ | .decEb _ => .writesAll
  | .stc => .setsCarry
  | .pushR16 _ | .popR16 _ => .writesNone
  | .movEbGb _ _ | .movEvGv _ _ | .movGbEb _ _ | .movGvEv _ _ => .writesNone
  | .movR8Ib _ _ | .movR16Iw _ _ | .movEbIb _ _ | .movEvIw _ _ => .writesNone
  | .xchgEbGb _ _ | .xchgAxCx | .xchgAxDx | .xchgAxBx | .xchgAxSp | .xchgAxBp | .xchgAxSi | .xchgAxDi => .writesNone
  | .jbRel8 _ | .jzRel8 _ | .jnzRel8 _ | .jbeRel8 _ | .jaRel8 _ | .jnsRel8 _ | .jmpRel8 _ => .writesNone
  | .callRel16 _ | .ret | .nop | .hlt => .writesNone

/-- The Exceptions entry of each instruction's rule. -/
def ending : Instr → Ending
  | .addEbGb _ _ | .addEvGv _ _ | .addGbEb _ _ | .addGvEv _ _ | .addEbIb _ _ | .addEvIw _ _ | .addEvSIb _ _ => .runningOrBadMode
  | .orEbGb _ _ | .orEvGv _ _ | .orGbEb _ _ | .orGvEv _ _ | .orEbIb _ _ | .orEvIw _ _ | .orEvSIb _ _ => .runningOrBadMode
  | .adcEbGb _ _ | .adcEvGv _ _ | .adcGbEb _ _ | .adcGvEv _ _ | .adcEbIb _ _ | .adcEvIw _ _ | .adcEvSIb _ _ => .runningOrBadMode
  | .sbbEbGb _ _ | .sbbEvGv _ _ | .sbbGbEb _ _ | .sbbGvEv _ _ | .sbbEbIb _ _ | .sbbEvIw _ _ | .sbbEvSIb _ _ => .runningOrBadMode
  | .andEbGb _ _ | .andEvGv _ _ | .andGbEb _ _ | .andGvEv _ _ | .andEbIb _ _ | .andEvIw _ _ | .andEvSIb _ _ => .runningOrBadMode
  | .subEbGb _ _ | .subEvGv _ _ | .subGbEb _ _ | .subGvEv _ _ | .subEbIb _ _ | .subEvIw _ _ | .subEvSIb _ _ => .runningOrBadMode
  | .xorEbGb _ _ | .xorEvGv _ _ | .xorGbEb _ _ | .xorGvEv _ _ | .xorEbIb _ _ | .xorEvIw _ _ | .xorEvSIb _ _ => .runningOrBadMode
  | .cmpEbGb _ _ | .cmpEvGv _ _ | .cmpGbEb _ _ | .cmpGvEv _ _ | .cmpEbIb _ _ | .cmpEvIw _ _ | .cmpEvSIb _ _ => .runningOrBadMode
  | .incEb _ | .decEb _ => .runningOrBadMode
  | .movEbGb _ _ | .movEvGv _ _ | .movGbEb _ _ | .movGvEv _ _ | .movEbIb _ _ | .movEvIw _ _ => .runningOrBadMode
  | .xchgEbGb _ _ => .runningOrBadMode
  | .pushR16 _ | .popR16 _ | .callRel16 _ | .ret => .runningOrStackFault
  | .hlt => .halted
  | .incR16 _ | .decR16 _ | .movR8Ib _ _ | .movR16Iw _ _ => .running
  | .xchgAxCx | .xchgAxDx | .xchgAxBx | .xchgAxSp | .xchgAxBp | .xchgAxSi | .xchgAxDi => .running
  | .jbRel8 _ | .jzRel8 _ | .jnzRel8 _ | .jbeRel8 _ | .jaRel8 _ | .jnsRel8 _ | .jmpRel8 _ => .running
  | .nop | .stc => .running

/-- A status that an ending allows. -/
def Ending.allows : Ending → Status → Prop
  | .running, st => st = .running
  | .runningOrBadMode, st => st = .running ∨ ∃ m, st = .aborted (.badAddressingMode m)
  | .runningOrStackFault, st => st = .running ∨ st = .stackFault
  | .halted, st => st = .halted

end Sys2Proof.Spec

section
open Sys2Proof Sys2Proof.Machine Sys2Proof.Spec

/-- One word of every family, written in the spec as bytes (its vectors AF1, AF8, AF9, AF20, AF17, RM4, MX11, MX6, MX7,
MX14, MX16, ID5, ID11, ST1, ST2, CT1, CT4, CT18, CT21 and the bytes 90, F9, F4), decodes to the instruction the spec
names beside it. (95_test_vectors.md sections 2.2 to 2.8, R67, R69.) -/
def Obligations.WordsDecodeAsTheSpecWritesThem : Prop :=
  decode [0x00, 0xC3] = .ok (.addEbGb (.reg .bx) .ax, []) ∧
  decode [0x29, 0x07] = .ok (.subEvGv .bx .ax, []) ∧
  decode [0x2A, 0x07] = .ok (.subGbEb .ax .bx, []) ∧
  decode [0x83, 0xC0, 0xFF] = .ok (.addEvSIb (.reg .ax) 0xFF, []) ∧
  decode [0x81, 0x87, 0x00, 0x10, 0x01, 0x00] = .ok (.addEvIw (.bxDisp 0x1000) 0x0001, []) ∧
  decode [0x80, 0x3E, 0x00, 0x80, 0x20] = .ok (.cmpEbIb (.direct 0x8000) 0x20, []) ∧
  decode [0x8A, 0x5B, 0xFF] = .ok (.movGbEb .bx (.bpDiDisp 0xFF), []) ∧
  decode [0xC7, 0x85, 0x00, 0x00, 0xFF, 0xFF] = .ok (.movEvIw (.diDisp 0x0000) 0xFFFF, []) ∧
  decode [0xB4, 0x05] = .ok (.movR8Ib .sp 0x05, []) ∧
  decode [0xB8, 0x05, 0x00] = .ok (.movR16Iw .ax 0x0005, []) ∧
  decode [0x86, 0x07] = .ok (.xchgEbGb .bx .ax, []) ∧
  decode [0x91] = .ok (.xchgAxCx, []) ∧
  decode [0x44] = .ok (.incR16 .sp, []) ∧
  decode [0xFE, 0x0E, 0x00, 0x90] = .ok (.decEb (.direct 0x9000), []) ∧
  decode [0x50] = .ok (.pushR16 .ax, []) ∧
  decode [0x59] = .ok (.popR16 .cx, []) ∧
  decode [0xEB, 0x01] = .ok (.jmpRel8 0x01, []) ∧
  decode [0x72, 0x02] = .ok (.jbRel8 0x02, []) ∧
  decode [0xE8, 0x04, 0x00] = .ok (.callRel16 0x0004, []) ∧
  decode [0xC3] = .ok (.ret, []) ∧
  decode [0x90, 0xF9, 0xF4] = .ok (.nop, [0xF9, 0xF4]) ∧
  decode [0xF9, 0xF4] = .ok (.stc, [0xF4]) ∧
  decode [0xF4] = .ok (.hlt, [])

/-- For every well-formed instruction i, with every operand at every value the encoding admits, and every list of following
bytes, decode (encode i ++ rest) is i with rest left. (R60, R63, R67, R69, 30_encoding.md sections 1 to 4.) -/
def Obligations.DecodeInvertsEncode : Prop :=
  ∀ (i : Instr) (rest : List Byte), i.wf = true → decode (encode i ++ rest) = .ok (i, rest)

/-- If decode answers instruction i and rest, then i is well-formed and the bytes are exactly encode i followed by rest: no
bit of an accepted encoding is dropped or read twice. (R60, R69, R73, 30_encoding.md sections 1 to 4.) -/
def Obligations.EncodeInvertsDecode : Prop :=
  ∀ (bs : List Byte) (i : Instr) (rest : List Byte),
    decode bs = .ok (i, rest) → i.wf = true ∧ bs = encode i ++ rest

/-- For an accepted opcode byte op followed by bytes of which the first is m (legal where op has a ModR/M byte), decoding
takes exactly length(op, m) bytes, and the lengths by opcode range are those the rule lists. (R71.) -/
def Obligations.InstructionLengthFormula : Prop :=
  (∀ (op m : Byte) (bs : List Byte) (i : Instr) (rest : List Byte),
    decode (op :: m :: bs) = .ok (i, rest) → (hasModRM op = true → legalModRM m) →
      (op :: m :: bs).length = instrLength op m + rest.length) ∧
  (∀ op m : Byte, op ∉ unsupportedOpcodes → 1 ≤ instrLength op m ∧ instrLength op m ≤ 6) ∧
  (∀ op m : Byte,
    ((between op 0x40 0x5F || between op 0x90 0x97 || [0xC3, 0xF4, 0xF9].contains op) = true → instrLength op m = 1) ∧
    ((between op 0xB0 0xB7 || [0x72, 0x74, 0x75, 0x76, 0x77, 0x79, 0xEB].contains op) = true → instrLength op m = 2) ∧
    ((between op 0xB8 0xBF || [0xE8].contains op) = true → instrLength op m = 3) ∧
    (hasModRM op = true → 2 ≤ instrLength op m))

/-- The decoder answers "unsupported opcode" for a byte, whatever follows it, exactly when the byte is in the list of
30_encoding.md R70 point 1, which holds 146 different bytes. (R69, R70.) -/
def Obligations.UnsupportedOpcodeBytes : Prop :=
  (∀ (op : Byte) (bs : List Byte), decode (op :: bs) = .error (.unsupportedOpcode op) ↔ op ∈ unsupportedOpcodes) ∧
  unsupportedOpcodes.length = 146 ∧ unsupportedOpcodes.Nodup

/-- For the seven defined addressing modes, with every reg field and every displacement: the bytes of MOV r16, r/m16 (8B)
with that ModR/M byte decode to that operand, taking 0, 1 or 2 little-endian displacement bytes, and resolve gives
register offset 2*rm or the effective address modulo 2^16, an 8-bit displacement sign-extended. (R65.) -/
def Obligations.OperandResolverTable : Prop :=
  ∀ (s : State) (reg r : RegNum) (lo hi : Byte) (rest : List Byte),
    let m (mode rm : Nat) : Byte := BitVec.ofNat 8 (64 * mode + 8 * reg.toNat + rm)
    let d : Word := BitVec.ofNat 16 (256 * hi.toNat + lo.toNat)
    let sext : Nat := if lo.toNat < 128 then lo.toNat else lo.toNat + 0xFF00
    (decode (0x8B :: m 3 r.toNat :: rest) = .ok (.movGvEv reg (.reg r), rest) ∧
      resolve (.reg r) s = some (.reg (BitVec.ofNat 4 (2 * r.toNat)))) ∧
    (decode (0x8B :: m 0 1 :: rest) = .ok (.movGvEv reg .bxDi, rest) ∧
      ∃ a, resolve .bxDi s = some (.mem a) ∧ a.toNat = ((s.reg16 .bx).toNat + (s.reg16 .di).toNat) % 65536) ∧
    (decode (0x8B :: m 0 6 :: lo :: hi :: rest) = .ok (.movGvEv reg (.direct d), rest) ∧
      resolve (.direct d) s = some (.mem d)) ∧
    (decode (0x8B :: m 0 7 :: rest) = .ok (.movGvEv reg .bx, rest) ∧
      resolve .bx s = some (.mem (s.reg16 .bx))) ∧
    (decode (0x8B :: m 1 3 :: lo :: rest) = .ok (.movGvEv reg (.bpDiDisp lo), rest) ∧
      ∃ a, resolve (.bpDiDisp lo) s = some (.mem a) ∧
        a.toNat = ((s.reg16 .bp).toNat + (s.reg16 .di).toNat + sext) % 65536) ∧
    (decode (0x8B :: m 2 5 :: lo :: hi :: rest) = .ok (.movGvEv reg (.diDisp d), rest) ∧
      ∃ a, resolve (.diDisp d) s = some (.mem a) ∧ a.toNat = ((s.reg16 .di).toNat + d.toNat) % 65536) ∧
    (decode (0x8B :: m 2 7 :: lo :: hi :: rest) = .ok (.movGvEv reg (.bxDisp d), rest) ∧
      ∃ a, resolve (.bxDisp d) s = some (.mem a) ∧ a.toNat = ((s.reg16 .bx).toNat + d.toNat) % 65536)

/-- When the status is Running and the bytes from ip on decode to i with rest left of the six-byte window, step is exec of i
in the state whose ip has moved by the number of bytes taken; nothing else is added around exec. (R61, R78.) -/
def Obligations.StepRunsTheDecodedInstruction : Prop :=
  ∀ (s : State) (i : Instr) (rest : List Byte), s.status = .running → decode s.fetchWindow = .ok (i, rest) →
    step s = exec i (s.setIp (s.ip + BitVec.ofNat 16 (6 - rest.length)))

/-- For every well-formed i whose encoding stands byte by byte at ip, ip+1, ... (modulo 2^16), whatever stands after it, a
Running step is exec of i with ip at the start address plus the instruction length. (R26, R60, R61, R78.) -/
def Obligations.StepRunsTheInstructionInMemory : Prop :=
  ∀ (s : State) (i : Instr), i.wf = true → s.status = .running →
    (∀ (n : Nat) (h : n < (encode i).length), s.readByte (s.ip + BitVec.ofNat 16 n) = (encode i)[n]) →
    step s = exec i (s.setIp (s.ip + BitVec.ofNat 16 (encode i).length))

/-- When the status is Running and the byte at ip is one of the 146 unsupported values, the step answers a next state with
status Unsupported of that byte, ip one further, and registers, flags, memory and the model fields as before. (R211.) -/
def Obligations.UnsupportedOpcodeStopsTheStep : Prop :=
  ∀ s : State, s.status = .running → s.readByte s.ip ∈ unsupportedOpcodes →
    ∃ t, step s = .next t ∧ t.status = .unsupported (s.readByte s.ip) ∧ t.ip = s.ip + 1 ∧ SameData s t ∧
      t.params = s.params ∧ t.draws = s.draws

/-- When the status is Running, the byte at ip is an opcode with a ModR/M byte and that byte has an undefined (mode, rm)
pair, the step ends in Aborted(BadAddressingMode(m)), with registers, flags and memory as before: for every opcode and
every reg value, the bad selectors of FE, C6 and C7 among them. (R64, R70, R212, R217.) -/
def Obligations.UndefinedAddressingModeStopsTheStep : Prop :=
  ∀ s : State, s.status = .running → hasModRM (s.readByte s.ip) = true → ¬ legalModRM (s.readByte (s.ip + 1)) →
    EndsAborted (.badAddressingMode (s.readByte (s.ip + 1))) s (step s)

/-- When the status is Running, the opcode and ModR/M byte at ip have a sub-selector that selects nothing and a legal (mode,
rm) pair, the step ends in Aborted(BadSubOpcode(op, reg)) with registers, flags and memory as before. (R72, R155, R212.) -/
def Obligations.BadSubSelectorStopsTheStep : Prop :=
  ∀ s : State, s.status = .running → badSelectorOf (s.readByte s.ip) (s.readByte (s.ip + 1)) →
    legalModRM (s.readByte (s.ip + 1)) →
    EndsAborted (.badSubOpcode (s.readByte s.ip) (BitVec.ofNat 3 ((s.readByte (s.ip + 1)).toNat / 8))) s (step s)

/-- For every instruction with a ModR/M byte whose operand is an undefined (mode, rm) pair, exec ends in
Aborted(BadAddressingMode(m)), m being the whole ModR/M byte with the instruction's reg field, and registers, flags and
memory are as before. (R64, R212, R215.) -/
def Obligations.UndefinedOperandAborts : Prop :=
  ∀ (i : Instr) (reg : RegNum) (rm : RM) (s : State), i.modRM = some (reg, rm) → rm.isUndefined = true →
    EndsAborted (.badAddressingMode (rm.modRMByte reg)) s (exec i s)

/-- For every state whose status is not Running, step answers the same state, and so does any number of steps. (R214.) -/
def Obligations.TerminalStatusIsPermanent : Prop :=
  ∀ s : State, s.status ≠ .running → step s = .next s ∧ ∀ n : Nat, Sys2Proof.core.run n s = .next s

/-- For every running state, if the step answers a state with a terminal status, then registers, flags and memory are as
before the step; and after a halt or an unsupported opcode ip is the opcode's address plus 1. (R215.) -/
def Obligations.TerminalConditionsArePrecise : Prop :=
  ∀ s t : State, s.status = .running → step s = .next t → t.status ≠ .running →
    SameData s t ∧ (t.status.leavesIpOpen = false → t.ip = s.ip + 1)

/-- For every state there is a next state that step answers; the decoder never runs out of the six fetched bytes and no
instruction is refused. (R13, R69, R78.) -/
def Obligations.StepAlwaysAnswersNext : Prop :=
  ∀ s : State, ∃ t, step s = .next t

/-- For every state with the invariant (memory strictly rising by address, inside 64 KiB, no zero byte listed; status one
the block can record, with a recorded value that causes it, a stack fault only under P_STACK_WRAP = Fault), the state
the step answers has it too. The canonical list form is the model's own. (R40, R210, R213, 20_memory.md section 1.) -/
def Obligations.StepKeepsTheInvariant : Prop :=
  ∀ s t : State, s.Inv → step s = .next t → t.Inv

/-- For all values of the parameters the reset state has canonical memory and a legal status; State.reset is one of them.
(R37, R240.) -/
def Obligations.ResetMeetsTheInvariant : Prop :=
  (∀ (p : Config.Params) (g : Config.ResetGpr), (State.resetWith p g).Inv) ∧ State.reset.Inv

/-- For every value of the parameters: SP is 0x0100, ip 0x0000, CF, ZF and SF false, every memory byte 0x00, the status
Running, and AX, CX, DX, BX, BP, SI, DI hold the values of the open parameter P_RESET_GPR. (R33, R35, R36.) -/
def Obligations.ResetValues : Prop :=
  ∀ (p : Config.Params) (g : Config.ResetGpr),
    let s := State.resetWith p g
    s.sp = 0x0100 ∧ s.ip = 0x0000 ∧ s.flags = ⟨false, false, false⟩ ∧ (∀ a, s.readByte a = 0x00) ∧ s.status = .running ∧
    s.reg16 .ax = g.ax ∧ s.reg16 .cx = g.cx ∧ s.reg16 .dx = g.dx ∧ s.reg16 .bx = g.bx ∧ s.reg16 .bp = g.bp ∧
    s.reg16 .si = g.si ∧ s.reg16 .di = g.di

/-- The state a step answers has the same P_INCDEC_CF and P_STACK_WRAP as the state before. The parameters stand in State by
the model's choice (log entry 3). (R6, 00_scope.md section 3.) -/
def Obligations.StepKeepsTheParameters : Prop :=
  ∀ s t : State, step s = .next t → t.params = s.params

/-- Two states that agree on memory, registers, flags, status and parameters, and on ip unless the status leaves it
unspecified, are still so related after any number of steps, whatever their draw counters: the value ip holds after an
abort or a stack fault never reaches anything else. The counter is the model's own (log entry 2). (R212, R213, R214.) -/
def Obligations.FreeValuesAreNeverRead : Prop :=
  let agree (s t : State) : Prop :=
    t.mem = s.mem ∧ t.rb = s.rb ∧ t.flags = s.flags ∧ t.status = s.status ∧ t.params = s.params ∧
    (s.status.leavesIpOpen = false → t.ip = s.ip)
  ∀ (n : Nat) (s s' : State), agree s s' →
    ∃ t t', Sys2Proof.core.run n s = .next t ∧ Sys2Proof.core.run n s' = .next t' ∧ agree t t'

/-- Under either value of P_INCDEC_CF, a step gives the same memory, registers, ip, status, ZF and SF. After an abort or a
stack fault the spec leaves ip unspecified (R212, R213); that ip agrees there too is the model's choice (log entry 2:
the free value depends on the draw counter alone), not a rule of the spec. (R150, D8.) -/
def Obligations.IncDecParameterTouchesOnlyCarry : Prop :=
  ∀ (s t : State) (c : Config.IncDecCf), step s = .next t →
    ∃ t', step { s with params := { s.params with incDecCf := c } } = .next t' ∧ t'.mem = t.mem ∧ t'.rb = t.rb ∧
      t'.ip = t.ip ∧ t'.status = t.status ∧ t'.flags.zf = t.flags.zf ∧ t'.flags.sf = t.flags.sf

/-- For every instruction: if exec answers a next state, then an instruction outside the ALU group, INC, DEC and STC leaves
all three flags, and STC sets CF and leaves ZF and SF. (That the others write all three is in their own statements.) The
reset value of the flags is false. (R28, R36, R141, R201.) -/
def Obligations.OnlyFlagWritersWriteFlags : Prop :=
  (∀ (i : Instr) (s t : State), exec i s = .next t →
    (flagUse i = .writesNone → t.flags = s.flags) ∧
    (flagUse i = .setsCarry → t.flags = { s.flags with cf := true })) ∧
  (∀ (p : Config.Params) (g : Config.ResetGpr), (State.resetWith p g).flags = ⟨false, false, false⟩)

/-- For every instruction run in a Running state: an operand form ends Running or in BadAddressingMode, PUSH, POP, CALL and
RET end Running or in StackFault, HLT ends Halted, every other instruction ends Running. (R141, R202, R210, 40 to 45,
the Exceptions entries.) -/
def Obligations.InstructionsEndOnlyAsTheirRulesSay : Prop :=
  ∀ (i : Instr) (s t : State), s.status = .running → exec i s = .next t → (ending i).allows t.status

/-- For every state, address and byte: after MemWrite(a, 1, v) reading a gives v and reading any other address gives what it
gave before; registers, ip, flags and status are unchanged. (R41, R52.) -/
def Obligations.MemoryReadsBackTheLastWrite : Prop :=
  ∀ (s : State) (a b : Word) (v : Byte),
    (s.writeByte a v).readByte b = (if b = a then v else s.readByte b) ∧ (s.writeByte a v).rb = s.rb ∧
    (s.writeByte a v).ip = s.ip ∧ (s.writeByte a v).flags = s.flags ∧ (s.writeByte a v).status = s.status

/-- For every state and address: a word read is the byte at a plus 256 times the byte at a+1 modulo 2^16; a word write puts
v mod 256 at a and v div 256 at a+1 and leaves every other byte, also at 0xFFFF, where the high byte is at 0x0000. (R42,
R43.) -/
def Obligations.WordAccessIsLittleEndianAndWraps : Prop :=
  ∀ (s : State) (a b v : Word),
    (s.readWord a).toNat = (s.readByte a).toNat + 256 * (s.readByte (a + 1)).toNat ∧
    ((s.writeWord a v).readByte b).toNat =
      (if b = a then v.toNat % 256 else if b = a + 1 then v.toNat / 256 else (s.readByte b).toNat) ∧
    (s.writeWord a v).readWord a = v ∧
    (s.readWord 0xFFFF).toNat = (s.readByte 0xFFFF).toNat + 256 * (s.readByte 0x0000).toNat

/-- For every state and register number r, 4 to 7 among them: the word read is RB[2r] plus 256 RB[2r+1], the byte read is
RB[2r]; an 8-bit write changes RB[2r] only, a word write changes RB[2r] and RB[2r+1] only, and a word written is read
back. (R21, R23.) -/
def Obligations.RegisterAccessByBytes : Prop :=
  ∀ (s : State) (r : RegNum) (o : RegOff) (v : Word) (b : Byte),
    let lo : RegOff := BitVec.ofNat 4 (2 * r.toNat)
    let hi : RegOff := BitVec.ofNat 4 (2 * r.toNat + 1)
    (s.reg16 r).toNat = (s.regByte lo).toNat + 256 * (s.regByte hi).toNat ∧
    s.reg8 r = s.regByte lo ∧
    (s.setReg8 r b).regByte o = (if o = lo then b else s.regByte o) ∧
    ((s.setReg16 r v).regByte o).toNat =
      (if o = lo then v.toNat % 256 else if o = hi then v.toNat / 256 else (s.regByte o).toNat) ∧
    (s.setReg16 r v).reg16 r = v

/-- At width 8 and 16, for every operation, operands and carry-in: the value written back is the wrapped result (the first
operand for CMP), CF is the unsigned comparison of the result with the first operand (false for AND, OR, XOR), ZF says
the result is 0 and SF is its top bit, for CMP from the subtraction. (R101, R102.) -/
def Obligations.AluFunctionByNumbers : Prop :=
  ∀ (w : Nat), w = 8 ∨ w = 16 → ∀ (k : AluOp) (a b : BitVec w) (cin : Bool),
    let r := aluNumber k w a.toNat b.toNat cin.toNat
    ((alu k a b cin).out.toNat : Int) = (if k = .cmp then (a.toNat : Int) else r) ∧
    (alu k a b cin).flags.cf = aluNumberCarry k a.toNat r ∧
    (alu k a b cin).flags.zf = decide (r = 0) ∧
    (alu k a b cin).flags.sf = decide ((2 : Int) ^ (w - 1) ≤ r)

/-- At width 8 and 16: for ADD, SUB and CMP, CF holds exactly when the true result leaves 0..2^W-1; for ADC and SBB the same
whenever b + cin is at most 2^W-1; and when b is 2^W-1 and cin is 1, the value written is the first operand and CF is 0
although the true result is outside. (R107.) -/
def Obligations.CarryIsTrueCarryButForTheQuirk : Prop :=
  ∀ (w : Nat), w = 8 ∨ w = 16 → ∀ (k : AluOp) (a b : BitVec w) (cin : Bool) (t : Int),
    trueResult k a.toNat b.toNat cin.toNat = some t →
    ((k = .add ∨ k = .sub ∨ k = .cmp ∨ b.toNat + cin.toNat ≤ 2 ^ w - 1) →
      ((alu k a b cin).flags.cf = true ↔ (2 ^ w ≤ t ∨ t < 0))) ∧
    ((k = .adc ∨ k = .sbb) → b.toNat = 2 ^ w - 1 → cin = true →
      (alu k a b cin).out = a ∧ (alu k a b cin).flags.cf = false ∧ (2 ^ w ≤ t ∨ t < 0))

/-- For every 16-bit v: ADD(v, 0) is v with ZF = (v = 0), SF = v[15], CF = 0; AND, OR and XOR clear CF at both widths;
SUB(v1, v2) followed by ADD(result, v2) gives v1. (R120.) -/
def Obligations.AluArithmeticLaws : Prop :=
  (∀ (v : Word) (c : Bool), (alu .add v 0 c).out = v ∧
    (alu .add v 0 c).flags = ⟨false, decide (v = 0), decide (32768 ≤ v.toNat)⟩) ∧
  (∀ (k : AluOp), k = .and ∨ k = .or ∨ k = .xor → ∀ (a b : Word) (x y : Byte) (c : Bool),
    (alu k a b c).flags.cf = false ∧ (alu k x y c).flags.cf = false) ∧
  (∀ (v1 v2 : Word) (c d : Bool), (alu .add (alu .sub v1 v2 c).out v2 d).out = v1)

/-- For each of addEbGb, orEbGb, adcEbGb, sbbEbGb, andEbGb, subEbGb, xorEbGb, cmpEbGb: when the operand resolves, exec
answers a next state in which the destination holds the ALU's output for the operation, all three flags are the ALU's,
ip is as given (past the instruction), and no other byte of the registers or of memory, nor the status, changes; an
undefined operand aborts with no data changed; the encoding is the one the rule gives. (R112.) -/
def Obligations.AluRm8RegEffect : Prop :=
  ∀ k i, (k, i) ∈ formsEbGb → ∀ (dst : RM) (src : RegNum) (s : State),
    (∀ ref, resolve dst s = some ref →
      let r := alu k (s.readRef8 ref) (s.reg8 src) s.flags.cf
      ∃ t, exec (i dst src) s = .next t ∧ t.readRef8 ref = r.out ∧ t.flags = r.flags ∧ t.ip = s.ip ∧ Frame s t ref.regBytes8 ref.memBytes8) ∧
    (dst.isUndefined = true → EndsAborted (.badAddressingMode (dst.modRMByte src)) s (exec (i dst src) s)) ∧
    encode (i dst src) = BitVec.ofNat 8 (8 * (aluCode k).toNat) :: dst.encode src

/-- For each of addEvGv, orEvGv, adcEvGv, sbbEvGv, andEvGv, subEvGv, xorEvGv, cmpEvGv: when the operand resolves, exec
answers a next state in which the destination holds the ALU's output for the operation, all three flags are the ALU's,
ip is as given (past the instruction), and no other byte of the registers or of memory, nor the status, changes; an
undefined operand aborts with no data changed; the encoding is the one the rule gives. (R113.) -/
def Obligations.AluRm16RegEffect : Prop :=
  ∀ k i, (k, i) ∈ formsEvGv → ∀ (dst : RM) (src : RegNum) (s : State),
    (∀ ref, resolve dst s = some ref →
      let r := alu k (s.readRef16 ref) (s.reg16 src) s.flags.cf
      ∃ t, exec (i dst src) s = .next t ∧ t.readRef16 ref = r.out ∧ t.flags = r.flags ∧ t.ip = s.ip ∧ Frame s t ref.regBytes16 ref.memBytes16) ∧
    (dst.isUndefined = true → EndsAborted (.badAddressingMode (dst.modRMByte src)) s (exec (i dst src) s)) ∧
    encode (i dst src) = BitVec.ofNat 8 (8 * (aluCode k).toNat + 1) :: dst.encode src

/-- For each of addGbEb, orGbEb, adcGbEb, sbbGbEb, andGbEb, subGbEb, xorGbEb, cmpGbEb: when the operand resolves, exec
answers a next state in which the destination holds the ALU's output for the operation, all three flags are the ALU's,
ip is as given (past the instruction), and no other byte of the registers or of memory, nor the status, changes; an
undefined operand aborts with no data changed; the encoding is the one the rule gives. (R114.) -/
def Obligations.AluReg8RmEffect : Prop :=
  ∀ k i, (k, i) ∈ formsGbEb → ∀ (dst : RegNum) (src : RM) (s : State),
    (∀ ref, resolve src s = some ref →
      let r := alu k (s.reg8 dst) (s.readRef8 ref) s.flags.cf
      ∃ t, exec (i dst src) s = .next t ∧ t.reg8 dst = r.out ∧ t.flags = r.flags ∧ t.ip = s.ip ∧ Frame s t (regBytes8 dst) []) ∧
    (src.isUndefined = true → EndsAborted (.badAddressingMode (src.modRMByte dst)) s (exec (i dst src) s)) ∧
    encode (i dst src) = BitVec.ofNat 8 (8 * (aluCode k).toNat + 2) :: src.encode dst

/-- For each of addGvEv, orGvEv, adcGvEv, sbbGvEv, andGvEv, subGvEv, xorGvEv, cmpGvEv: when the operand resolves, exec
answers a next state in which the destination holds the ALU's output for the operation, all three flags are the ALU's,
ip is as given (past the instruction), and no other byte of the registers or of memory, nor the status, changes; an
undefined operand aborts with no data changed; the encoding is the one the rule gives. (R115.) -/
def Obligations.AluReg16RmEffect : Prop :=
  ∀ k i, (k, i) ∈ formsGvEv → ∀ (dst : RegNum) (src : RM) (s : State),
    (∀ ref, resolve src s = some ref →
      let r := alu k (s.reg16 dst) (s.readRef16 ref) s.flags.cf
      ∃ t, exec (i dst src) s = .next t ∧ t.reg16 dst = r.out ∧ t.flags = r.flags ∧ t.ip = s.ip ∧ Frame s t (regBytes16 dst) []) ∧
    (src.isUndefined = true → EndsAborted (.badAddressingMode (src.modRMByte dst)) s (exec (i dst src) s)) ∧
    encode (i dst src) = BitVec.ofNat 8 (8 * (aluCode k).toNat + 3) :: src.encode dst

/-- For each of addEbIb, orEbIb, adcEbIb, sbbEbIb, andEbIb, subEbIb, xorEbIb, cmpEbIb: when the operand resolves, exec
answers a next state in which the destination holds the ALU's output for the operation, all three flags are the ALU's,
ip is as given (past the instruction), and no other byte of the registers or of memory, nor the status, changes; an
undefined operand aborts with no data changed; the encoding is the one the rule gives. (R116.) -/
def Obligations.AluRm8ImmEffect : Prop :=
  ∀ k i, (k, i) ∈ formsEbIb → ∀ (dst : RM) (imm : Byte) (s : State),
    (∀ ref, resolve dst s = some ref →
      let r := alu k (s.readRef8 ref) imm s.flags.cf
      ∃ t, exec (i dst imm) s = .next t ∧ t.readRef8 ref = r.out ∧ t.flags = r.flags ∧ t.ip = s.ip ∧ Frame s t ref.regBytes8 ref.memBytes8) ∧
    (dst.isUndefined = true → EndsAborted (.badAddressingMode (dst.modRMByte (aluCode k))) s (exec (i dst imm) s)) ∧
    (dst.isUndefined = false → encode (i dst imm) = 0x80 :: (dst.encode (aluCode k) ++ [imm]))

/-- For each of addEvIw, orEvIw, adcEvIw, sbbEvIw, andEvIw, subEvIw, xorEvIw, cmpEvIw: when the operand resolves, exec
answers a next state in which the destination holds the ALU's output for the operation, all three flags are the ALU's,
ip is as given (past the instruction), and no other byte of the registers or of memory, nor the status, changes; an
undefined operand aborts with no data changed; the encoding is the one the rule gives. (R117.) -/
def Obligations.AluRm16ImmEffect : Prop :=
  ∀ k i, (k, i) ∈ formsEvIw → ∀ (dst : RM) (imm : Word) (s : State),
    (∀ ref, resolve dst s = some ref →
      let r := alu k (s.readRef16 ref) imm s.flags.cf
      ∃ t, exec (i dst imm) s = .next t ∧ t.readRef16 ref = r.out ∧ t.flags = r.flags ∧ t.ip = s.ip ∧ Frame s t ref.regBytes16 ref.memBytes16) ∧
    (dst.isUndefined = true → EndsAborted (.badAddressingMode (dst.modRMByte (aluCode k))) s (exec (i dst imm) s)) ∧
    (dst.isUndefined = false → encode (i dst imm) = 0x81 :: (dst.encode (aluCode k) ++ [loByte imm, hiByte imm]))

/-- For each of addEvSIb, orEvSIb, adcEvSIb, sbbEvSIb, andEvSIb, subEvSIb, xorEvSIb, cmpEvSIb: when the operand resolves,
exec answers a next state in which the destination holds the ALU's output for the operation, all three flags are the
ALU's, ip is as given (past the instruction), and no other byte of the registers or of memory, nor the status, changes;
an undefined operand aborts with no data changed; the encoding is the one the rule gives. (R118.) -/
def Obligations.AluRm16SignedImmEffect : Prop :=
  ∀ k i, (k, i) ∈ formsEvSIb → ∀ (dst : RM) (imm : Byte) (s : State),
    (∀ ref, resolve dst s = some ref →
      let r := alu k (s.readRef16 ref) (BitVec.ofNat 16 (if imm.toNat < 128 then imm.toNat else imm.toNat + 0xFF00)) s.flags.cf
      ∃ t, exec (i dst imm) s = .next t ∧ t.readRef16 ref = r.out ∧ t.flags = r.flags ∧ t.ip = s.ip ∧ Frame s t ref.regBytes16 ref.memBytes16) ∧
    (dst.isUndefined = true → EndsAborted (.badAddressingMode (dst.modRMByte (aluCode k))) s (exec (i dst imm) s)) ∧
    (dst.isUndefined = false → encode (i dst imm) = 0x83 :: (dst.encode (aluCode k) ++ [imm]))

/-- For incR16 and decR16 and every register, SP among them: exec answers a next state in which the register holds its value
plus or minus 1 modulo 2^16, ZF and SF are of the result, CF is the carry or borrow under Recompute and unchanged under
Preserve, and nothing else changes; the encoding is 40+r and 48+r. (R151, R152.) -/
def Obligations.IncDecReg16Effect : Prop :=
  ∀ (dec : Bool) (r : RegNum) (s : State),
    let i : Instr := if dec then .decR16 r else .incR16 r
    (∃ t, exec i s = .next t ∧ (t.reg16 r).toNat = incDecNumber dec 16 (s.reg16 r).toNat ∧
      t.flags = incDecFlags dec 16 (s.reg16 r).toNat s.params s.flags ∧ t.ip = s.ip ∧ Frame s t (regBytes16 r) []) ∧
    encode i = [BitVec.ofNat 8 ((if dec then 0x48 else 0x40) + r.toNat)]

/-- For incEb and decEb: when the operand resolves, exec answers a next state in which the operand byte is one more or less
modulo 2^8, ZF and SF are of the byte, CF is as P_INCDEC_CF says, and nothing else changes; an undefined operand aborts;
the encoding is FE with reg 0 and 1. (R150, R153, R154.) -/
def Obligations.IncDecRm8Effect : Prop :=
  ∀ (dec : Bool) (dst : RM) (s : State),
    let i : Instr := if dec then .decEb dst else .incEb dst
    let sel : RegNum := if dec then 1 else 0
    (∀ ref, resolve dst s = some ref →
      ∃ t, exec i s = .next t ∧ (t.readRef8 ref).toNat = incDecNumber dec 8 (s.readRef8 ref).toNat ∧
        t.flags = incDecFlags dec 8 (s.readRef8 ref).toNat s.params s.flags ∧ t.ip = s.ip ∧
        Frame s t ref.regBytes8 ref.memBytes8) ∧
    (dst.isUndefined = true → EndsAborted (.badAddressingMode (dst.modRMByte sel)) s (exec i s)) ∧
    encode i = 0xFE :: dst.encode sel

/-- For every register and state both orders complete, every register byte and every memory byte then reads as at the start,
at the 0x0000 and 0xFFFF boundaries too. (R152, 95_test_vectors.md W4.) -/
def Obligations.IncDecRoundTrip : Prop :=
  ∀ (r : RegNum) (s : State),
    (∃ t u, exec (.incR16 r) s = .next t ∧ exec (.decR16 r) t = .next u ∧
      (∀ o, u.regByte o = s.regByte o) ∧ ∀ a, u.readByte a = s.readByte a) ∧
    (∃ t u, exec (.decR16 r) s = .next t ∧ exec (.incR16 r) t = .next u ∧
      (∀ o, u.regByte o = s.regByte o) ∧ ∀ a, u.readByte a = s.readByte a)

/-- For every register, SP among them (its old value is pushed), when the push is allowed: exec answers a next state with
the register's high byte at the old SP, its low byte at SP-1, SP two lower, the pushed word the little-endian word at
the new SP + 1, flags and ip unchanged, every other byte of registers and memory unchanged; when it is not allowed it
ends in StackFault; the encoding is 50+r. (R163, R164, R166.) -/
def Obligations.PushEffect : Prop :=
  ∀ (r : RegNum) (s : State),
    (pushAllowed s →
      ∃ t, exec (.pushR16 r) s = .next t ∧ (t.readByte s.sp).toNat = (s.reg16 r).toNat / 256 ∧
        (t.readByte (s.sp - 1)).toNat = (s.reg16 r).toNat % 256 ∧ t.sp = s.sp - 2 ∧ t.readWord (t.sp + 1) = s.reg16 r ∧
        t.flags = s.flags ∧ t.ip = s.ip ∧ Frame s t spBytes [s.sp, s.sp - 1]) ∧
    (¬ pushAllowed s → EndsStackFault s (exec (.pushR16 r) s)) ∧
    encode (.pushR16 r) = [BitVec.ofNat 8 (0x50 + r.toNat)]

/-- For every register when the pop is allowed: exec answers a next state in which the register holds the byte at SP+1 plus
256 times the byte at SP+2, SP is two higher unless SP is the register, flags and ip are unchanged, and every other
register byte and all of memory is unchanged; when it is not allowed it ends in StackFault; the encoding is 58+r. (R165,
R167.) -/
def Obligations.PopEffect : Prop :=
  ∀ (r : RegNum) (s : State),
    (popAllowed s →
      ∃ t, exec (.popR16 r) s = .next t ∧
        (t.reg16 r).toNat = (s.readByte (s.sp + 1)).toNat + 256 * (s.readByte (s.sp + 2)).toNat ∧
        (r ≠ .sp → t.sp = s.sp + 2) ∧ t.flags = s.flags ∧ t.ip = s.ip ∧ Frame s t (regBytes16 r ++ spBytes) []) ∧
    (¬ popAllowed s → EndsStackFault s (exec (.popR16 r) s)) ∧
    encode (.popR16 r) = [BitVec.ofNat 8 (0x58 + r.toNat)]

/-- Under P_STACK_WRAP = Fault, PUSH and CALL at SP 0x0000 or 0x0001 and POP and RET at SP 0xFFFE or 0xFFFF end in
StackFault with registers, flags and memory as before; under Wrap no running step ends in StackFault. (R213.) -/
def Obligations.StackWrapFaults : Prop :=
  (∀ (s : State) (r : RegNum) (rel : Word), s.params.stackWrap = .fault →
    ((s.sp = 0x0000 ∨ s.sp = 0x0001) →
      EndsStackFault s (exec (.pushR16 r) s) ∧ EndsStackFault s (exec (.callRel16 rel) s)) ∧
    ((s.sp = 0xFFFE ∨ s.sp = 0xFFFF) →
      EndsStackFault s (exec (.popR16 r) s) ∧ EndsStackFault s (exec .ret s))) ∧
  (∀ s t : State, s.status = .running → s.params.stackWrap = .wrap → step s = .next t → t.status ≠ .stackFault)

/-- For the stack helper, every word and every SP: push16(x) then pop16() gives x, SP as before, and bytes S and S-1 hold x;
and for the instructions, when the push is allowed, PUSH r then POP q completes with the old value of r in q, SP
restored when q is not SP. (R168.) -/
def Obligations.PushPopRoundTrip : Prop :=
  (∀ (s : State) (x : Word),
    (s.push16 x).pop16.1 = x ∧ (s.push16 x).pop16.2.sp = s.sp ∧
    ((s.push16 x).pop16.2.readByte s.sp).toNat = x.toNat / 256 ∧
    ((s.push16 x).pop16.2.readByte (s.sp - 1)).toNat = x.toNat % 256) ∧
  (∀ (r q : RegNum) (s : State), pushAllowed s →
    ∃ t u, exec (.pushR16 r) s = .next t ∧ exec (.popR16 q) t = .next u ∧ u.reg16 q = s.reg16 r ∧ (q ≠ .sp → u.sp = s.sp))

/-- For movEbGb and movEvGv: when the operand resolves, exec answers a next state in which the operand holds the register's
old value, flags and ip are unchanged, and no other byte of registers or memory changes; an undefined operand aborts;
the encodings are 88 and 89. (R130, R131.) -/
def Obligations.MovRmRegEffect : Prop :=
  ∀ (dst : RM) (src : RegNum) (s : State),
    (∀ ref, resolve dst s = some ref →
      (∃ t, exec (.movEbGb dst src) s = .next t ∧ t.readRef8 ref = s.reg8 src ∧ t.flags = s.flags ∧ t.ip = s.ip ∧
        Frame s t ref.regBytes8 ref.memBytes8) ∧
      (∃ t, exec (.movEvGv dst src) s = .next t ∧ t.readRef16 ref = s.reg16 src ∧ t.flags = s.flags ∧ t.ip = s.ip ∧
        Frame s t ref.regBytes16 ref.memBytes16)) ∧
    (dst.isUndefined = true →
      EndsAborted (.badAddressingMode (dst.modRMByte src)) s (exec (.movEbGb dst src) s) ∧
      EndsAborted (.badAddressingMode (dst.modRMByte src)) s (exec (.movEvGv dst src) s)) ∧
    encode (.movEbGb dst src) = 0x88 :: dst.encode src ∧ encode (.movEvGv dst src) = 0x89 :: dst.encode src

/-- For movGbEb and movGvEv: when the operand resolves, exec answers a next state in which the register holds the operand's
old value (an 8-bit move leaves the high byte), flags and ip are unchanged, and no other register byte and no memory
changes; an undefined operand aborts; the encodings are 8A and 8B. (R132, R133.) -/
def Obligations.MovRegRmEffect : Prop :=
  ∀ (dst : RegNum) (src : RM) (s : State),
    (∀ ref, resolve src s = some ref →
      (∃ t, exec (.movGbEb dst src) s = .next t ∧ t.reg8 dst = s.readRef8 ref ∧ t.flags = s.flags ∧ t.ip = s.ip ∧
        Frame s t (regBytes8 dst) []) ∧
      (∃ t, exec (.movGvEv dst src) s = .next t ∧ t.reg16 dst = s.readRef16 ref ∧ t.flags = s.flags ∧ t.ip = s.ip ∧
        Frame s t (regBytes16 dst) [])) ∧
    (src.isUndefined = true →
      EndsAborted (.badAddressingMode (src.modRMByte dst)) s (exec (.movGbEb dst src) s) ∧
      EndsAborted (.badAddressingMode (src.modRMByte dst)) s (exec (.movGvEv dst src) s)) ∧
    encode (.movGbEb dst src) = 0x8A :: src.encode dst ∧ encode (.movGvEv dst src) = 0x8B :: src.encode dst

/-- For movR8Ib and movR16Iw and every register, 4 to 7 among them: exec answers a next state in which the register (its low
byte for the 8-bit form) holds the immediate, flags and ip are unchanged, and no other register byte and no memory
changes; the encodings are B0+r and B8+r. (R134, R135.) -/
def Obligations.MovRegImmEffect : Prop :=
  ∀ (r : RegNum) (b : Byte) (v : Word) (s : State),
    (∃ t, exec (.movR8Ib r b) s = .next t ∧ t.reg8 r = b ∧ t.flags = s.flags ∧ t.ip = s.ip ∧
      Frame s t (regBytes8 r) []) ∧
    (∃ t, exec (.movR16Iw r v) s = .next t ∧ t.reg16 r = v ∧ t.flags = s.flags ∧ t.ip = s.ip ∧
      Frame s t (regBytes16 r) []) ∧
    encode (.movR8Ib r b) = [BitVec.ofNat 8 (0xB0 + r.toNat), b] ∧
    encode (.movR16Iw r v) = [BitVec.ofNat 8 (0xB8 + r.toNat), loByte v, hiByte v]

/-- For movEbIb and movEvIw: when the operand resolves, exec answers a next state in which the operand holds the immediate,
flags and ip are unchanged, and no other byte of registers or memory changes; an undefined operand aborts; the encodings
are C6 /0 and C7 /0. (The abort of a reg that is not 0 is BadSubSelectorStopsTheStep.) (R136, R137.) -/
def Obligations.MovRmImmEffect : Prop :=
  ∀ (dst : RM) (b : Byte) (v : Word) (s : State),
    (∀ ref, resolve dst s = some ref →
      (∃ t, exec (.movEbIb dst b) s = .next t ∧ t.readRef8 ref = b ∧ t.flags = s.flags ∧ t.ip = s.ip ∧
        Frame s t ref.regBytes8 ref.memBytes8) ∧
      (∃ t, exec (.movEvIw dst v) s = .next t ∧ t.readRef16 ref = v ∧ t.flags = s.flags ∧ t.ip = s.ip ∧
        Frame s t ref.regBytes16 ref.memBytes16)) ∧
    (dst.isUndefined = true →
      EndsAborted (.badAddressingMode (dst.modRMByte 0)) s (exec (.movEbIb dst b) s) ∧
      EndsAborted (.badAddressingMode (dst.modRMByte 0)) s (exec (.movEvIw dst v) s)) ∧
    (dst.isUndefined = false → encode (.movEbIb dst b) = 0xC6 :: (dst.encode 0 ++ [b]) ∧
      encode (.movEvIw dst v) = 0xC7 :: (dst.encode 0 ++ [loByte v, hiByte v]))

/-- For xchgEbGb: when the operand resolves, exec answers a next state in which the operand holds the register's old low
byte and the register's low byte the operand's old value, flags and ip are unchanged, and no other byte of registers or
memory changes; when both are one register nothing changes; an undefined operand aborts; the encoding is 86. (R138.) -/
def Obligations.XchgRm8RegEffect : Prop :=
  ∀ (dst : RM) (src : RegNum) (s : State),
    (∀ ref, resolve dst s = some ref →
      ∃ t, exec (.xchgEbGb dst src) s = .next t ∧ t.readRef8 ref = s.reg8 src ∧ t.reg8 src = s.readRef8 ref ∧
        t.flags = s.flags ∧ t.ip = s.ip ∧ Frame s t (ref.regBytes8 ++ regBytes8 src) ref.memBytes8) ∧
    (dst = .reg src → ∃ t, exec (.xchgEbGb dst src) s = .next t ∧ SameData s t) ∧
    (dst.isUndefined = true → EndsAborted (.badAddressingMode (dst.modRMByte src)) s (exec (.xchgEbGb dst src) s)) ∧
    encode (.xchgEbGb dst src) = 0x86 :: dst.encode src

/-- For xchgAxCx, xchgAxDx, xchgAxBx, xchgAxSp, xchgAxBp, xchgAxSi and xchgAxDi: exec answers a next state in which AX holds
the register's old value and the register AX's, flags, ip, every other register byte and all of memory unchanged; the
encoding is 90 plus the register number. (R139.) -/
def Obligations.XchgAxRegEffect : Prop :=
  ∀ i r, (i, r) ∈ xchgAxForms → ∀ s : State,
    (∃ t, exec i s = .next t ∧ t.reg16 .ax = s.reg16 r ∧ t.reg16 r = s.reg16 .ax ∧ t.flags = s.flags ∧ t.ip = s.ip ∧
      Frame s t (regBytes16 .ax ++ regBytes16 r) []) ∧
    encode i = [BitVec.ofNat 8 (0x90 + r.toNat)]

/-- For jbRel8, jzRel8, jnzRel8, jbeRel8, jaRel8, jnsRel8 and jmpRel8: exec answers a next state in which ip has the sign-
extended displacement added modulo 2^16 when the condition on the flags holds (always for JMP) and is unchanged
otherwise, and nothing else changes; and a running step that finds the opcode and displacement at ip does so from ip +
2. (R181, R182, R183, R184, R185, R186, R187.) -/
def Obligations.ShortJumpEffect : Prop :=
  ∀ i op cond, (i, op, cond) ∈ shortJumps → ∀ (rel : Byte) (s : State),
    let d : Word := BitVec.ofNat 16 (if rel.toNat < 128 then rel.toNat else rel.toNat + 0xFF00)
    (∃ t, exec (i rel) s = .next t ∧ t.ip = (if cond s.flags = true then s.ip + d else s.ip) ∧ t.flags = s.flags ∧
      Frame s t [] []) ∧
    (s.status = .running → s.readByte s.ip = op → s.readByte (s.ip + 1) = rel →
      ∃ t, step s = .next t ∧ t.ip = (if cond s.flags = true then s.ip + 2 + d else s.ip + 2) ∧ t.flags = s.flags ∧
        Frame s t [] []) ∧
    encode (i rel) = [op, rel]

/-- When the push is allowed, exec answers a next state with the high byte of the return address at the old SP, its low byte
at SP-1, SP two lower, ip the return address plus the offset, flags, every other register byte and every other memory
byte unchanged; when it is not allowed it ends in StackFault; and a running step that finds E8 lo hi at ip has ip + 3 as
the return address. (R188.) -/
def Obligations.CallEffect : Prop :=
  ∀ (rel : Word) (s : State),
    (pushAllowed s →
      ∃ t, exec (.callRel16 rel) s = .next t ∧ (t.readByte s.sp).toNat = s.ip.toNat / 256 ∧
        (t.readByte (s.sp - 1)).toNat = s.ip.toNat % 256 ∧ t.sp = s.sp - 2 ∧ t.ip = s.ip + rel ∧ t.flags = s.flags ∧
        Frame s t spBytes [s.sp, s.sp - 1]) ∧
    (¬ pushAllowed s → EndsStackFault s (exec (.callRel16 rel) s)) ∧
    (s.status = .running → s.readByte s.ip = 0xE8 → s.readWord (s.ip + 1) = rel → pushAllowed s →
      ∃ t, step s = .next t ∧ t.ip = s.ip + 3 + rel ∧ t.readWord (t.sp + 1) = s.ip + 3 ∧ t.sp = s.sp - 2) ∧
    encode (.callRel16 rel) = [0xE8, loByte rel, hiByte rel]

/-- When the pop is allowed, exec answers a next state with ip the byte at SP+1 plus 256 times the byte at SP+2, SP two
higher, flags, every other register byte and all of memory unchanged; when it is not allowed it ends in StackFault; the
encoding is C3. (R189.) -/
def Obligations.RetEffect : Prop :=
  ∀ s : State,
    (popAllowed s →
      ∃ t, exec .ret s = .next t ∧
        t.ip.toNat = (s.readByte (s.sp + 1)).toNat + 256 * (s.readByte (s.sp + 2)).toNat ∧ t.sp = s.sp + 2 ∧
        t.flags = s.flags ∧ Frame s t spBytes []) ∧
    (¬ popAllowed s → EndsStackFault s (exec .ret s)) ∧
    encode .ret = [0xC3]

/-- When the push is allowed, CALL and then RET complete, ip is then the address after the CALL, and every register byte and
flag is as before the CALL. (R188, R189, R168.) -/
def Obligations.CallThenRetReturns : Prop :=
  ∀ (rel : Word) (s : State), pushAllowed s →
    ∃ t u, exec (.callRel16 rel) s = .next t ∧ exec .ret t = .next u ∧ u.ip = s.ip ∧ u.flags = s.flags ∧
      ∀ o, u.regByte o = s.regByte o

/-- For nop, stc and hlt in every state: exec answers the same state; the state with CF true and ZF, SF and everything else
the same; the state with status Halted and everything else the same. ip is already past the opcode byte. The encodings
are 90, F9 and F4. A running step that finds 90, F9 or F4 at ip has that effect with ip one further. (R200, R201, R202.) -/
def Obligations.NopStcHltEffect : Prop :=
  ∀ s : State,
    exec .nop s = .next s ∧ exec .stc s = .next { s with flags := ⟨true, s.flags.zf, s.flags.sf⟩ } ∧
    exec .hlt s = .next { s with status := .halted } ∧
    encode .nop = [0x90] ∧ encode .stc = [0xF9] ∧ encode .hlt = [0xF4] ∧
    (s.status = .running →
      (s.readByte s.ip = 0x90 → step s = .next { s with ip := s.ip + 1 }) ∧
      (s.readByte s.ip = 0xF9 → step s = .next { s with ip := s.ip + 1, flags := ⟨true, s.flags.zf, s.flags.sf⟩ }) ∧
      (s.readByte s.ip = 0xF4 → step s = .next { s with ip := s.ip + 1, status := .halted }))

/-- For every image: after Load each address below the image's length reads the image's byte there and every other address
reads as before, also for an image longer than 65536 bytes; registers, flags, ip and status are unchanged; after reset
the bytes outside the image are 0x00; and with an empty image the first step aborts with BadAddressingMode(0x00).
(R241.) -/
def Obligations.LoadPlacesTheImage : Prop :=
  (∀ (s : State) (image : List Byte) (a : Word),
    (s.load image).readByte a = (if h : a.toNat < image.length then image[a.toNat] else s.readByte a) ∧
    (s.load image).rb = s.rb ∧ (s.load image).flags = s.flags ∧ (s.load image).ip = s.ip ∧
    (s.load image).status = s.status) ∧
  (∀ (p : Config.Params) (g : Config.ResetGpr) (image : List Byte) (a : Word), image.length ≤ a.toNat →
    ((State.resetWith p g).load image).readByte a = 0x00) ∧
  (∀ (p : Config.Params) (g : Config.ResetGpr),
    ∃ t, step ((State.resetWith p g).load []) = .next t ∧ t.status = .aborted (.badAddressingMode 0x00))

/-- After Halted and Unsupported(b) the output is 25 lines of 80 characters, the character of row and column being a space
where the byte at 0x8000 + 80 row + col is zero and P_DISPLAY_CHAR of the byte otherwise; after Aborted and StackFault
there is none. P_DISPLAY_CHAR is any function. (R245.) -/
def Obligations.CompletionOutputIsTheWindow : Prop :=
  ∀ (displayChar : Byte → Char) (s : State),
    ((s.status = .halted ∨ ∃ b, s.status = .unsupported b) →
      ∃ lines, s.completionOutput displayChar = some lines ∧ lines.length = 25 ∧
        ∀ row col : Nat, row < 25 → col < 80 → ∃ l, lines[row]? = some l ∧ l.length = 80 ∧
          l[col]? = some (if s.readByte (BitVec.ofNat 16 (0x8000 + 80 * row + col)) = 0 then ' '
            else displayChar (s.readByte (BitVec.ofNat 16 (0x8000 + 80 * row + col))))) ∧
    ((s.status = .stackFault ∨ ∃ info, s.status = .aborted info) → s.completionOutput displayChar = none)

/-- Counting is by Step calls made while the status is Running: none from a terminal status, one for a step that ends the
run, one more than the rest of the run for a step that leaves it Running. The spec's example B8 05 00 F4 counts 2 and F1
counts 1, for every P_RESET_GPR. (R243.) -/
def Obligations.StepCountEndsWithTheTerminalStep : Prop :=
  (∀ (fuel : Nat) (s : State), s.status ≠ .running → runCounted fuel s = (s, 0)) ∧
  (∀ (fuel : Nat) (s t : State), s.status = .running → step s = .next t →
    runCounted (fuel + 1) s = ((runCounted fuel t).1, (runCounted fuel t).2 + 1)) ∧
  (∀ (p : Config.Params) (g : Config.ResetGpr) (fuel : Nat),
    (runCounted (fuel + 2) ((State.resetWith p g).load [0xB8, 0x05, 0x00, 0xF4])).2 = 2 ∧
    (runCounted (fuel + 2) ((State.resetWith p g).load [0xB8, 0x05, 0x00, 0xF4])).1.status = .halted ∧
    (runCounted (fuel + 1) ((State.resetWith p g).load [0xF1])).2 = 1)

end
end

