-- ==== Sys2Proof/Laws/Words.lean ====
section
/-! SUPPORT. Bytes and words: the two halves of a word and the word of two halves, as numbers too. -/

namespace Sys2Proof

theorem cat_toNat (h l : Byte) : (cat h l).toNat = l.toNat + 256 * h.toNat := by
  show (h ++ l).toNat = _
  have hl := l.isLt
  rw [BitVec.toNat_append, ← Nat.shiftLeft_add_eq_or_of_lt hl, Nat.shiftLeft_eq]
  omega

theorem loByte_toNat (v : Word) : (loByte v).toNat = v.toNat % 256 := by
  simp [loByte, BitVec.extractLsb'_toNat]

theorem hiByte_toNat (v : Word) : (hiByte v).toNat = v.toNat / 256 := by
  have h := v.isLt
  simp only [hiByte, BitVec.extractLsb'_toNat, Nat.shiftRight_eq_div_pow]
  omega

@[simp] theorem loByte_cat (h l : Byte) : loByte (cat h l) = l := by
  apply BitVec.eq_of_toNat_eq
  rw [loByte_toNat, cat_toNat]
  omega

@[simp] theorem hiByte_cat (h l : Byte) : hiByte (cat h l) = h := by
  apply BitVec.eq_of_toNat_eq
  rw [hiByte_toNat, cat_toNat]
  omega

@[simp] theorem cat_hiByte_loByte (v : Word) : cat (hiByte v) (loByte v) = v := by
  apply BitVec.eq_of_toNat_eq
  rw [cat_toNat, loByte_toNat, hiByte_toNat]
  omega

/-- `sext_16` as 00_scope.md R9 words it. -/
theorem sext16_eq (b : Byte) : sext16 b = BitVec.ofNat 16 (if b.toNat < 128 then b.toNat else b.toNat + 0xFF00) := by
  revert b
  decide

end Sys2Proof
end

