-- ==== Sys2Proof/Laws/Decoding.lean ====
section
/-! SUPPORT. The opcode map: its rows do not overlap. The shared parsers: what they answer on bytes the encoder wrote, and
what a successful parse says of the bytes. -/

namespace Sys2Proof

/-- No opcode byte belongs to two rows: two rows differ in a bit that both fix. -/
theorem opcodeMap_disjoint :
    opcodeMap.Pairwise (fun r q => (r.pattern ^^^ q.pattern) &&& (r.mask &&& q.mask) ≠ 0) := by
  decide

/-- The code of an operation determines it (40_alu.md R100). -/
@[simp] theorem AluOp.ofCode_code (k : AluOp) : AluOp.ofCode k.code = k := by
  cases k <;> rfl

@[simp] theorem AluOp.code_ofCode : ∀ c : BitVec 3, (AluOp.ofCode c).code = c := by
  decide

/-! ### Fields of a ModR/M byte and of an opcode -/

@[simp] theorem modeField_append : ∀ (mode : BitVec 2) (reg rm : BitVec 3), modeField (mode ++ reg ++ rm) = mode := by
  decide

@[simp] theorem regField_append : ∀ (mode : BitVec 2) (reg rm : BitVec 3), regField (mode ++ reg ++ rm) = reg := by
  decide

@[simp] theorem rmField_append : ∀ (mode : BitVec 2) (reg rm : BitVec 3), rmField (mode ++ reg ++ rm) = rm := by
  decide

/-- A byte is its three ModR/M fields (30_encoding.md R63). -/
theorem modRM_fields : ∀ m : Byte, (modeField m ++ regField m ++ rmField m : Byte) = m := by
  decide

@[simp] theorem withByte_cons (b : Byte) (bs : List Byte) (k : Byte → List Byte → Decoded) :
    withByte (b :: bs) k = k b bs := rfl

@[simp] theorem withWord_cons (lo hi : Byte) (bs : List Byte) (k : Word → List Byte → Decoded) :
    withWord (lo :: hi :: bs) k = k (cat hi lo) bs := rfl

/-! ### Parsing what the encoder wrote -/

/-- A byte covered by a row is decoded by the row's handler. -/
theorem decode_cons {op : Byte} {form : Form} (h : formOf op = some form) (bs : List Byte) :
    decode (op :: bs) = decodeForm op bs form := by
  simp [decode, h]

@[simp] theorem rmField_regOpcode (high : BitVec 5) : ∀ r : RegNum, rmField (regOpcode high r) = r := by
  revert high
  decide

theorem RM.wf_of_wfImm {w : Nat} {rm : RM} {imm : BitVec w} (h : rm.wfImm imm = true) : rm.wf = true := by
  simp_all [RM.wfImm]

theorem withModRM_encode (rm : RM) (reg : RegNum) (rest : List Byte) (k : RegNum → RM → List Byte → Decoded)
    (h : rm.wf = true) : withModRM (rm.encode reg ++ rest) k = k reg rm rest := by
  cases rm with
  | undefined mode r =>
    simp only [RM.encode, RM.modRMByte, RM.modeBits, RM.rmBits, RM.dispBytes, withModRM, List.cons_append, withByte_cons,
      modeField_append, rmField_append, regField_append, List.nil_append]
    simp only [RM.wf] at h
    split <;> first | rfl | (exfalso; revert h; simp [definedMode])
  | _ => simp [RM.encode, RM.modRMByte, RM.modeBits, RM.rmBits, RM.dispBytes, withModRM]

theorem withImm8_bytes (rm : RM) (imm : Byte) (rest : List Byte) (k : Byte → List Byte → Decoded)
    (h : rm.wfImm imm = true) : withImm8 rm (rm.imm8Bytes imm ++ rest) k = k imm rest := by
  cases hu : rm.isUndefined <;> simp_all [withImm8, RM.imm8Bytes, RM.wfImm]

theorem withImm16_bytes (rm : RM) (imm : Word) (rest : List Byte) (k : Word → List Byte → Decoded)
    (h : rm.wfImm imm = true) : withImm16 rm (rm.imm16Bytes imm ++ rest) k = k imm rest := by
  cases hu : rm.isUndefined <;> simp_all [withImm16, RM.imm16Bytes, RM.wfImm]

/-! ### What a successful parse says of the bytes -/

theorem withByte_ok {bs : List Byte} {k : Byte → List Byte → Decoded} {p : Instr × List Byte}
    (h : withByte bs k = .ok p) : ∃ b rest, bs = b :: rest ∧ k b rest = .ok p := by
  cases bs with
  | nil => simp [withByte] at h
  | cons b rest => exact ⟨b, rest, rfl, h⟩

theorem withWord_ok {bs : List Byte} {k : Word → List Byte → Decoded} {p : Instr × List Byte}
    (h : withWord bs k = .ok p) : ∃ v rest, bs = loByte v :: hiByte v :: rest ∧ k v rest = .ok p := by
  obtain ⟨lo, rest, rfl, h'⟩ := withByte_ok (bs := bs) h
  obtain ⟨hi, rest, rfl, h''⟩ := withByte_ok h'
  exact ⟨cat hi lo, rest, by simp, h''⟩

/-- A pair is undefined, or mode 11, or one of the six memory modes. -/
theorem definedMode_cases : ∀ (mode : BitVec 2) (rm : BitVec 3), definedMode mode rm = false ∨ mode = 3 ∨
    (mode, rm) ∈ [((0 : BitVec 2), (1 : BitVec 3)), (0, 6), (0, 7), (1, 3), (2, 5), (2, 7)] := by
  decide

/-- A parsed ModR/M byte and displacement are the encoding of a well-formed operand. -/
theorem withModRM_ok {bs : List Byte} {k : RegNum → RM → List Byte → Decoded} {p : Instr × List Byte}
    (h : withModRM bs k = .ok p) :
    ∃ reg rm rest, rm.wf = true ∧ bs = rm.encode reg ++ rest ∧ k reg rm rest = .ok p := by
  obtain ⟨m, rest, rfl, h'⟩ := withByte_ok (bs := bs) h
  clear h
  dsimp only at h'
  have hm := modRM_fields m
  generalize modeField m = mode at h' hm
  generalize rmField m = r at h' hm
  generalize regField m = reg at h' hm
  have e (rm : RM) (h1 : rm.modeBits = mode) (h2 : rm.rmBits = r) : rm.encode reg = m :: rm.dispBytes := by
    rw [RM.encode, RM.modRMByte, h1, h2, hm]
  rcases definedMode_cases mode r with hu | hu | hu
  · refine ⟨reg, .undefined mode r, rest, by simp [RM.wf, hu], by rw [e _ rfl rfl]; rfl, ?_⟩
    split at h'
    iterate 7 exact absurd hu (by simp [definedMode])
    exact h'
  · subst hu
    exact ⟨reg, .reg r, rest, rfl, by rw [e _ rfl rfl]; rfl, h'⟩
  · simp only [List.mem_cons, List.not_mem_nil, or_false, Prod.mk.injEq] at hu
    rcases hu with ⟨rfl, rfl⟩ | ⟨rfl, rfl⟩ | ⟨rfl, rfl⟩ | ⟨rfl, rfl⟩ | ⟨rfl, rfl⟩ | ⟨rfl, rfl⟩
    · exact ⟨reg, .bxDi, rest, rfl, by rw [e _ rfl rfl]; rfl, h'⟩
    · obtain ⟨d, tail, rfl, ht⟩ := withWord_ok h'
      exact ⟨reg, .direct d, tail, rfl, by rw [e _ rfl rfl]; rfl, ht⟩
    · exact ⟨reg, .bx, rest, rfl, by rw [e _ rfl rfl]; rfl, h'⟩
    · obtain ⟨d, tail, rfl, ht⟩ := withByte_ok h'
      exact ⟨reg, .bpDiDisp d, tail, rfl, by rw [e _ rfl rfl]; rfl, ht⟩
    · obtain ⟨d, tail, rfl, ht⟩ := withWord_ok h'
      exact ⟨reg, .diDisp d, tail, rfl, by rw [e _ rfl rfl]; rfl, ht⟩
    · obtain ⟨d, tail, rfl, ht⟩ := withWord_ok h'
      exact ⟨reg, .bxDisp d, tail, rfl, by rw [e _ rfl rfl]; rfl, ht⟩

theorem withImm8_ok {rm : RM} {bs : List Byte} {k : Byte → List Byte → Decoded} {p : Instr × List Byte}
    (hw : rm.wf = true) (h : withImm8 rm bs k = .ok p) :
    ∃ imm rest, rm.wfImm imm = true ∧ bs = rm.imm8Bytes imm ++ rest ∧ k imm rest = .ok p := by
  cases hu : rm.isUndefined with
  | true => exact ⟨0, bs, by simp [RM.wfImm, hw], by simp [RM.imm8Bytes, hu], by simpa [withImm8, hu] using h⟩
  | false =>
    obtain ⟨b, rest, rfl, h'⟩ := withByte_ok (by simpa [withImm8, hu] using h)
    exact ⟨b, rest, by simp [RM.wfImm, hw, hu], by simp [RM.imm8Bytes, hu], h'⟩

theorem withImm16_ok {rm : RM} {bs : List Byte} {k : Word → List Byte → Decoded} {p : Instr × List Byte}
    (hw : rm.wf = true) (h : withImm16 rm bs k = .ok p) :
    ∃ imm rest, rm.wfImm imm = true ∧ bs = rm.imm16Bytes imm ++ rest ∧ k imm rest = .ok p := by
  cases hu : rm.isUndefined with
  | true => exact ⟨0, bs, by simp [RM.wfImm, hw], by simp [RM.imm16Bytes, hu], by simpa [withImm16, hu] using h⟩
  | false =>
    obtain ⟨v, rest, rfl, h'⟩ := withWord_ok (by simpa [withImm16, hu] using h)
    exact ⟨v, rest, by simp [RM.wfImm, hw, hu], by simp [RM.imm16Bytes, hu], h'⟩

theorem badSelector_ne_ok {op : Byte} {reg : RegNum} {rm : RM} {p : Instr × List Byte} : badSelector op reg rm ≠ .ok p := by
  unfold badSelector
  split <;> simp

end Sys2Proof
end

