-- ==== Sys2Proof/Laws/State.lean ====
section
/-! SUPPORT. One lemma per field per update of the state, and what reads see through an update of another field, so that no
later proof unfolds a record update. -/

namespace Sys2Proof.Machine

/-! ### writeByte -/

@[simp] theorem State.writeByte_mem (s : State) (a : Word) (v : Byte) : (s.writeByte a v).mem = s.mem.write a.toNat v := rfl
@[simp] theorem State.writeByte_ip (s : State) (a : Word) (v : Byte) : (s.writeByte a v).ip = s.ip := rfl
@[simp] theorem State.writeByte_rb (s : State) (a : Word) (v : Byte) : (s.writeByte a v).rb = s.rb := rfl
@[simp] theorem State.writeByte_flags (s : State) (a : Word) (v : Byte) : (s.writeByte a v).flags = s.flags := rfl
@[simp] theorem State.writeByte_status (s : State) (a : Word) (v : Byte) : (s.writeByte a v).status = s.status := rfl
@[simp] theorem State.writeByte_params (s : State) (a : Word) (v : Byte) : (s.writeByte a v).params = s.params := rfl
@[simp] theorem State.writeByte_draws (s : State) (a : Word) (v : Byte) : (s.writeByte a v).draws = s.draws := rfl
@[simp] theorem State.regByte_writeByte (s : State) (a : Word) (v : Byte) (p : RegOff) : (s.writeByte a v).regByte p = s.regByte p := rfl
@[simp] theorem State.regWord_writeByte (s : State) (a : Word) (v : Byte) (p : RegOff) : (s.writeByte a v).regWord p = s.regWord p := rfl
@[simp] theorem State.reg8_writeByte (s : State) (a : Word) (v : Byte) (q : RegNum) : (s.writeByte a v).reg8 q = s.reg8 q := rfl
@[simp] theorem State.reg16_writeByte (s : State) (a : Word) (v : Byte) (q : RegNum) : (s.writeByte a v).reg16 q = s.reg16 q := rfl
@[simp] theorem State.sp_writeByte (s : State) (a : Word) (v : Byte) : (s.writeByte a v).sp = s.sp := rfl

/-! ### setRegByte -/

@[simp] theorem State.setRegByte_mem (s : State) (o : RegOff) (v : Byte) : (s.setRegByte o v).mem = s.mem := rfl
@[simp] theorem State.setRegByte_ip (s : State) (o : RegOff) (v : Byte) : (s.setRegByte o v).ip = s.ip := rfl
@[simp] theorem State.setRegByte_rb (s : State) (o : RegOff) (v : Byte) : (s.setRegByte o v).rb = s.rb.set o.toNat v o.isLt := rfl
@[simp] theorem State.setRegByte_flags (s : State) (o : RegOff) (v : Byte) : (s.setRegByte o v).flags = s.flags := rfl
@[simp] theorem State.setRegByte_status (s : State) (o : RegOff) (v : Byte) : (s.setRegByte o v).status = s.status := rfl
@[simp] theorem State.setRegByte_params (s : State) (o : RegOff) (v : Byte) : (s.setRegByte o v).params = s.params := rfl
@[simp] theorem State.setRegByte_draws (s : State) (o : RegOff) (v : Byte) : (s.setRegByte o v).draws = s.draws := rfl
@[simp] theorem State.readByte_setRegByte (s : State) (o : RegOff) (v : Byte) (b : Word) : (s.setRegByte o v).readByte b = s.readByte b := rfl
@[simp] theorem State.readWord_setRegByte (s : State) (o : RegOff) (v : Byte) (b : Word) : (s.setRegByte o v).readWord b = s.readWord b := rfl

/-! ### setIp -/

@[simp] theorem State.setIp_mem (s : State) (x : Word) : (s.setIp x).mem = s.mem := rfl
@[simp] theorem State.setIp_ip (s : State) (x : Word) : (s.setIp x).ip = x := rfl
@[simp] theorem State.setIp_rb (s : State) (x : Word) : (s.setIp x).rb = s.rb := rfl
@[simp] theorem State.setIp_flags (s : State) (x : Word) : (s.setIp x).flags = s.flags := rfl
@[simp] theorem State.setIp_status (s : State) (x : Word) : (s.setIp x).status = s.status := rfl
@[simp] theorem State.setIp_params (s : State) (x : Word) : (s.setIp x).params = s.params := rfl
@[simp] theorem State.setIp_draws (s : State) (x : Word) : (s.setIp x).draws = s.draws := rfl
@[simp] theorem State.readByte_setIp (s : State) (x : Word) (b : Word) : (s.setIp x).readByte b = s.readByte b := rfl
@[simp] theorem State.readWord_setIp (s : State) (x : Word) (b : Word) : (s.setIp x).readWord b = s.readWord b := rfl
@[simp] theorem State.regByte_setIp (s : State) (x : Word) (p : RegOff) : (s.setIp x).regByte p = s.regByte p := rfl
@[simp] theorem State.regWord_setIp (s : State) (x : Word) (p : RegOff) : (s.setIp x).regWord p = s.regWord p := rfl
@[simp] theorem State.reg8_setIp (s : State) (x : Word) (q : RegNum) : (s.setIp x).reg8 q = s.reg8 q := rfl
@[simp] theorem State.reg16_setIp (s : State) (x : Word) (q : RegNum) : (s.setIp x).reg16 q = s.reg16 q := rfl
@[simp] theorem State.sp_setIp (s : State) (x : Word) : (s.setIp x).sp = s.sp := rfl
@[simp] theorem State.readRef8_setIp (s : State) (x : Word) (ref : Ref) : (s.setIp x).readRef8 ref = s.readRef8 ref := by cases ref <;> rfl
@[simp] theorem State.readRef16_setIp (s : State) (x : Word) (ref : Ref) : (s.setIp x).readRef16 ref = s.readRef16 ref := by cases ref <;> rfl

/-! ### setFlags -/

@[simp] theorem State.setFlags_mem (s : State) (f : Flags) : (s.setFlags f).mem = s.mem := rfl
@[simp] theorem State.setFlags_ip (s : State) (f : Flags) : (s.setFlags f).ip = s.ip := rfl
@[simp] theorem State.setFlags_rb (s : State) (f : Flags) : (s.setFlags f).rb = s.rb := rfl
@[simp] theorem State.setFlags_flags (s : State) (f : Flags) : (s.setFlags f).flags = f := rfl
@[simp] theorem State.setFlags_status (s : State) (f : Flags) : (s.setFlags f).status = s.status := rfl
@[simp] theorem State.setFlags_params (s : State) (f : Flags) : (s.setFlags f).params = s.params := rfl
@[simp] theorem State.setFlags_draws (s : State) (f : Flags) : (s.setFlags f).draws = s.draws := rfl
@[simp] theorem State.readByte_setFlags (s : State) (f : Flags) (b : Word) : (s.setFlags f).readByte b = s.readByte b := rfl
@[simp] theorem State.readWord_setFlags (s : State) (f : Flags) (b : Word) : (s.setFlags f).readWord b = s.readWord b := rfl
@[simp] theorem State.regByte_setFlags (s : State) (f : Flags) (p : RegOff) : (s.setFlags f).regByte p = s.regByte p := rfl
@[simp] theorem State.regWord_setFlags (s : State) (f : Flags) (p : RegOff) : (s.setFlags f).regWord p = s.regWord p := rfl
@[simp] theorem State.reg8_setFlags (s : State) (f : Flags) (q : RegNum) : (s.setFlags f).reg8 q = s.reg8 q := rfl
@[simp] theorem State.reg16_setFlags (s : State) (f : Flags) (q : RegNum) : (s.setFlags f).reg16 q = s.reg16 q := rfl
@[simp] theorem State.sp_setFlags (s : State) (f : Flags) : (s.setFlags f).sp = s.sp := rfl
@[simp] theorem State.readRef8_setFlags (s : State) (f : Flags) (ref : Ref) : (s.setFlags f).readRef8 ref = s.readRef8 ref := by cases ref <;> rfl
@[simp] theorem State.readRef16_setFlags (s : State) (f : Flags) (ref : Ref) : (s.setFlags f).readRef16 ref = s.readRef16 ref := by cases ref <;> rfl

/-! ### writeWord -/

@[simp] theorem State.writeWord_ip (s : State) (a v : Word) : (s.writeWord a v).ip = s.ip := rfl
@[simp] theorem State.writeWord_rb (s : State) (a v : Word) : (s.writeWord a v).rb = s.rb := rfl
@[simp] theorem State.writeWord_flags (s : State) (a v : Word) : (s.writeWord a v).flags = s.flags := rfl
@[simp] theorem State.writeWord_status (s : State) (a v : Word) : (s.writeWord a v).status = s.status := rfl
@[simp] theorem State.writeWord_params (s : State) (a v : Word) : (s.writeWord a v).params = s.params := rfl
@[simp] theorem State.writeWord_draws (s : State) (a v : Word) : (s.writeWord a v).draws = s.draws := rfl
@[simp] theorem State.regByte_writeWord (s : State) (a v : Word) (p : RegOff) : (s.writeWord a v).regByte p = s.regByte p := rfl
@[simp] theorem State.regWord_writeWord (s : State) (a v : Word) (p : RegOff) : (s.writeWord a v).regWord p = s.regWord p := rfl
@[simp] theorem State.reg8_writeWord (s : State) (a v : Word) (q : RegNum) : (s.writeWord a v).reg8 q = s.reg8 q := rfl
@[simp] theorem State.reg16_writeWord (s : State) (a v : Word) (q : RegNum) : (s.writeWord a v).reg16 q = s.reg16 q := rfl
@[simp] theorem State.sp_writeWord (s : State) (a v : Word) : (s.writeWord a v).sp = s.sp := rfl

/-! ### setRegWord -/

@[simp] theorem State.setRegWord_mem (s : State) (o : RegOff) (v : Word) : (s.setRegWord o v).mem = s.mem := rfl
@[simp] theorem State.setRegWord_ip (s : State) (o : RegOff) (v : Word) : (s.setRegWord o v).ip = s.ip := rfl
@[simp] theorem State.setRegWord_flags (s : State) (o : RegOff) (v : Word) : (s.setRegWord o v).flags = s.flags := rfl
@[simp] theorem State.setRegWord_status (s : State) (o : RegOff) (v : Word) : (s.setRegWord o v).status = s.status := rfl
@[simp] theorem State.setRegWord_params (s : State) (o : RegOff) (v : Word) : (s.setRegWord o v).params = s.params := rfl
@[simp] theorem State.setRegWord_draws (s : State) (o : RegOff) (v : Word) : (s.setRegWord o v).draws = s.draws := rfl
@[simp] theorem State.readByte_setRegWord (s : State) (o : RegOff) (v : Word) (b : Word) : (s.setRegWord o v).readByte b = s.readByte b := rfl
@[simp] theorem State.readWord_setRegWord (s : State) (o : RegOff) (v : Word) (b : Word) : (s.setRegWord o v).readWord b = s.readWord b := rfl

/-! ### setReg8 -/

@[simp] theorem State.setReg8_mem (s : State) (r : RegNum) (v : Byte) : (s.setReg8 r v).mem = s.mem := rfl
@[simp] theorem State.setReg8_ip (s : State) (r : RegNum) (v : Byte) : (s.setReg8 r v).ip = s.ip := rfl
@[simp] theorem State.setReg8_flags (s : State) (r : RegNum) (v : Byte) : (s.setReg8 r v).flags = s.flags := rfl
@[simp] theorem State.setReg8_status (s : State) (r : RegNum) (v : Byte) : (s.setReg8 r v).status = s.status := rfl
@[simp] theorem State.setReg8_params (s : State) (r : RegNum) (v : Byte) : (s.setReg8 r v).params = s.params := rfl
@[simp] theorem State.setReg8_draws (s : State) (r : RegNum) (v : Byte) : (s.setReg8 r v).draws = s.draws := rfl
@[simp] theorem State.readByte_setReg8 (s : State) (r : RegNum) (v : Byte) (b : Word) : (s.setReg8 r v).readByte b = s.readByte b := rfl
@[simp] theorem State.readWord_setReg8 (s : State) (r : RegNum) (v : Byte) (b : Word) : (s.setReg8 r v).readWord b = s.readWord b := rfl

/-! ### setReg16 -/

@[simp] theorem State.setReg16_mem (s : State) (r : RegNum) (v : Word) : (s.setReg16 r v).mem = s.mem := rfl
@[simp] theorem State.setReg16_ip (s : State) (r : RegNum) (v : Word) : (s.setReg16 r v).ip = s.ip := rfl
@[simp] theorem State.setReg16_flags (s : State) (r : RegNum) (v : Word) : (s.setReg16 r v).flags = s.flags := rfl
@[simp] theorem State.setReg16_status (s : State) (r : RegNum) (v : Word) : (s.setReg16 r v).status = s.status := rfl
@[simp] theorem State.setReg16_params (s : State) (r : RegNum) (v : Word) : (s.setReg16 r v).params = s.params := rfl
@[simp] theorem State.setReg16_draws (s : State) (r : RegNum) (v : Word) : (s.setReg16 r v).draws = s.draws := rfl
@[simp] theorem State.readByte_setReg16 (s : State) (r : RegNum) (v : Word) (b : Word) : (s.setReg16 r v).readByte b = s.readByte b := rfl
@[simp] theorem State.readWord_setReg16 (s : State) (r : RegNum) (v : Word) (b : Word) : (s.setReg16 r v).readWord b = s.readWord b := rfl

/-! ### push8 -/

@[simp] theorem State.push8_ip (s : State) (v : Byte) : (s.push8 v).ip = s.ip := rfl
@[simp] theorem State.push8_flags (s : State) (v : Byte) : (s.push8 v).flags = s.flags := rfl
@[simp] theorem State.push8_status (s : State) (v : Byte) : (s.push8 v).status = s.status := rfl
@[simp] theorem State.push8_params (s : State) (v : Byte) : (s.push8 v).params = s.params := rfl
@[simp] theorem State.push8_draws (s : State) (v : Byte) : (s.push8 v).draws = s.draws := rfl

/-! ### push16 -/

@[simp] theorem State.push16_ip (s : State) (v : Word) : (s.push16 v).ip = s.ip := rfl
@[simp] theorem State.push16_flags (s : State) (v : Word) : (s.push16 v).flags = s.flags := rfl
@[simp] theorem State.push16_status (s : State) (v : Word) : (s.push16 v).status = s.status := rfl
@[simp] theorem State.push16_params (s : State) (v : Word) : (s.push16 v).params = s.params := rfl
@[simp] theorem State.push16_draws (s : State) (v : Word) : (s.push16 v).draws = s.draws := rfl

/-! ### pop8, pop16: SP moves, nothing else -/

@[simp] theorem State.pop8_mem (s : State) : s.pop8.2.mem = s.mem := rfl
@[simp] theorem State.pop8_ip (s : State) : s.pop8.2.ip = s.ip := rfl
@[simp] theorem State.pop8_flags (s : State) : s.pop8.2.flags = s.flags := rfl
@[simp] theorem State.pop8_status (s : State) : s.pop8.2.status = s.status := rfl
@[simp] theorem State.pop8_params (s : State) : s.pop8.2.params = s.params := rfl
@[simp] theorem State.pop8_draws (s : State) : s.pop8.2.draws = s.draws := rfl
@[simp] theorem State.readByte_pop8 (s : State) (b : Word) : s.pop8.2.readByte b = s.readByte b := rfl

@[simp] theorem State.pop16_mem (s : State) : s.pop16.2.mem = s.mem := rfl
@[simp] theorem State.pop16_ip (s : State) : s.pop16.2.ip = s.ip := rfl
@[simp] theorem State.pop16_flags (s : State) : s.pop16.2.flags = s.flags := rfl
@[simp] theorem State.pop16_status (s : State) : s.pop16.2.status = s.status := rfl
@[simp] theorem State.pop16_params (s : State) : s.pop16.2.params = s.params := rfl
@[simp] theorem State.pop16_draws (s : State) : s.pop16.2.draws = s.draws := rfl
@[simp] theorem State.readByte_pop16 (s : State) (b : Word) : s.pop16.2.readByte b = s.readByte b := rfl

/-! ### writeRef8, writeRef16: memory or the register file, by the reference -/

@[simp] theorem State.writeRef8_ip (s : State) (ref : Ref) (v : Byte) : (s.writeRef8 ref v).ip = s.ip := by
  cases ref <;> rfl
@[simp] theorem State.writeRef8_flags (s : State) (ref : Ref) (v : Byte) : (s.writeRef8 ref v).flags = s.flags := by
  cases ref <;> rfl
@[simp] theorem State.writeRef8_status (s : State) (ref : Ref) (v : Byte) : (s.writeRef8 ref v).status = s.status := by
  cases ref <;> rfl
@[simp] theorem State.writeRef8_params (s : State) (ref : Ref) (v : Byte) : (s.writeRef8 ref v).params = s.params := by
  cases ref <;> rfl
@[simp] theorem State.writeRef8_draws (s : State) (ref : Ref) (v : Byte) : (s.writeRef8 ref v).draws = s.draws := by
  cases ref <;> rfl

@[simp] theorem State.writeRef16_ip (s : State) (ref : Ref) (v : Word) : (s.writeRef16 ref v).ip = s.ip := by
  cases ref <;> rfl
@[simp] theorem State.writeRef16_flags (s : State) (ref : Ref) (v : Word) : (s.writeRef16 ref v).flags = s.flags := by
  cases ref <;> rfl
@[simp] theorem State.writeRef16_status (s : State) (ref : Ref) (v : Word) : (s.writeRef16 ref v).status = s.status := by
  cases ref <;> rfl
@[simp] theorem State.writeRef16_params (s : State) (ref : Ref) (v : Word) : (s.writeRef16 ref v).params = s.params := by
  cases ref <;> rfl
@[simp] theorem State.writeRef16_draws (s : State) (ref : Ref) (v : Word) : (s.writeRef16 ref v).draws = s.draws := by
  cases ref <;> rfl

/-! ### raise: the status, and where it is left open ip and the draw counter -/

@[simp] theorem State.raise_mem (s : State) (c : Status) : (s.raise c).mem = s.mem := by cases c <;> rfl
@[simp] theorem State.raise_rb (s : State) (c : Status) : (s.raise c).rb = s.rb := by cases c <;> rfl
@[simp] theorem State.raise_flags (s : State) (c : Status) : (s.raise c).flags = s.flags := by cases c <;> rfl
@[simp] theorem State.raise_params (s : State) (c : Status) : (s.raise c).params = s.params := by cases c <;> rfl
@[simp] theorem State.raise_status (s : State) (c : Status) : (s.raise c).status = c := by cases c <;> rfl
@[simp] theorem State.readByte_raise (s : State) (c : Status) (b : Word) : (s.raise c).readByte b = s.readByte b := by
  cases c <;> rfl
@[simp] theorem State.regByte_raise (s : State) (c : Status) (o : RegOff) : (s.raise c).regByte o = s.regByte o := by
  cases c <;> rfl

end Sys2Proof.Machine
end

