-- ==== Sys2Proof/Laws/Registers.lean ====
section
/-! SUPPORT. The register file: a byte written is read back and every other byte is left alone; the offsets of the registers
(10_state.md R21, R23). -/

namespace Sys2Proof.Machine

theorem State.regByte_setRegByte (s : State) (o p : RegOff) (v : Byte) :
    (s.setRegByte o v).regByte p = if p = o then v else s.regByte p := by
  simp only [State.regByte, State.setRegByte, Vector.getElem_set, BitVec.toNat_inj, eq_comm (a := o)]

theorem State.regByte_setRegWord (s : State) (o p : RegOff) (v : Word) :
    (s.setRegWord o v).regByte p = if p = o + 1 then hiByte v else if p = o then loByte v else s.regByte p := by
  simp only [State.setRegWord, State.regByte_setRegByte]

theorem regOffset_eq : ∀ r : RegNum, regOffset r = BitVec.ofNat 4 (2 * r.toNat) := by decide

theorem regOffset_succ_eq : ∀ r : RegNum, regOffset r + 1 = BitVec.ofNat 4 (2 * r.toNat + 1) := by decide

@[simp] theorem regOffset_inj : ∀ {r q : RegNum}, regOffset r = regOffset q ↔ r = q := by decide

@[simp] theorem regOffset_ne_succ : ∀ r q : RegNum, regOffset r ≠ regOffset q + 1#4 := by decide

@[simp] theorem regOffset_succ_ne : ∀ r q : RegNum, regOffset q + 1#4 ≠ regOffset r := by decide

@[simp] theorem State.regWord_setRegWord (s : State) (o : RegOff) (v : Word) : (s.setRegWord o v).regWord o = v := by
  simp [State.regWord, State.regByte_setRegWord]

theorem State.reg16_setReg16 (s : State) (r q : RegNum) (v : Word) :
    (s.setReg16 r v).reg16 q = if q = r then v else s.reg16 q := by
  by_cases h : q = r
  · subst h
    simp [State.reg16, State.setReg16]
  · simp [State.reg16, State.setReg16, State.regWord, State.regByte_setRegWord, h]

@[simp] theorem State.sp_setReg16_sp (s : State) (v : Word) : (s.setReg16 .sp v).sp = v := by
  simp [State.sp, State.reg16_setReg16]

theorem State.reg8_setReg8 (s : State) (r q : RegNum) (v : Byte) :
    (s.setReg8 r v).reg8 q = if q = r then v else s.reg8 q := by
  simp [State.reg8, State.setReg8, State.regByte_setRegByte]

theorem State.regByte_setReg8 (s : State) (r : RegNum) (p : RegOff) (v : Byte) :
    (s.setReg8 r v).regByte p = if p = regOffset r then v else s.regByte p :=
  s.regByte_setRegByte (regOffset r) p v

theorem State.regByte_setReg16 (s : State) (r : RegNum) (p : RegOff) (v : Word) :
    (s.setReg16 r v).regByte p =
      if p = regOffset r + 1 then hiByte v else if p = regOffset r then loByte v else s.regByte p :=
  s.regByte_setRegWord (regOffset r) p v

/-- Two register files with the same bytes give the same words. -/
theorem State.reg16_congr {s t : State} (h : ∀ o, t.regByte o = s.regByte o) (r : RegNum) : t.reg16 r = s.reg16 r := by
  simp [State.reg16, State.regWord, h]

end Sys2Proof.Machine
end

