-- ==== Sys2Proof/Laws/Operands.lean ====
section
/-! SUPPORT. The resolver and access through references: what each can do, said once (20_memory.md R46; 30_encoding.md
R64). -/

namespace Sys2Proof.Machine

/-- The resolver answers none exactly on an undefined operand. -/
theorem resolve_eq_none_iff (rm : RM) (s : State) : resolve rm s = none ↔ rm.isUndefined = true := by
  cases rm <;> simp [resolve, RM.isUndefined]

theorem resolve_isSome {rm : RM} (s : State) (h : rm.isUndefined = false) : ∃ ref, resolve rm s = some ref := by
  cases rm <;> simp_all [resolve, RM.isUndefined]

/-- An operand form on a resolved operand completes with its own effect. -/
theorem withOperand_some {rm : RM} {s : State} {ref : Ref} (reg : RegNum) (k : Ref → State) (h : resolve rm s = some ref) :
    withOperand reg rm s k = .next (k ref) := by
  simp [withOperand, h]

/-- An operand form on an undefined operand raises the resolver's abort. -/
theorem withOperand_undefined {rm : RM} (reg : RegNum) (s : State) (k : Ref → State) (h : rm.isUndefined = true) :
    withOperand reg rm s k = .next (s.raise (.aborted (.badAddressingMode (rm.modRMByte reg)))) := by
  simp [withOperand, (resolve_eq_none_iff rm s).2 h]

/-- Everything `withOperand` can do. -/
theorem withOperand_cases (reg : RegNum) (rm : RM) (s : State) (k : Ref → State) :
    (∃ ref, resolve rm s = some ref ∧ withOperand reg rm s k = .next (k ref)) ∨
    (rm.isUndefined = true ∧
      withOperand reg rm s k = .next (s.raise (.aborted (.badAddressingMode (rm.modRMByte reg))))) := by
  cases h : resolve rm s with
  | some ref => exact .inl ⟨ref, rfl, withOperand_some reg k h⟩
  | none =>
    have hu := (resolve_eq_none_iff rm s).1 h
    exact .inr ⟨hu, withOperand_undefined reg s k hu⟩

/-! ### Access through a reference -/

@[simp] theorem State.readRef8_writeRef8 (s : State) (ref : Ref) (v : Byte) : (s.writeRef8 ref v).readRef8 ref = v := by
  cases ref <;> simp [State.readRef8, State.writeRef8, State.regByte_setRegByte, State.readByte_writeByte]

@[simp] theorem State.readRef16_writeRef16 (s : State) (ref : Ref) (v : Word) : (s.writeRef16 ref v).readRef16 ref = v := by
  cases ref <;> simp [State.readRef16, State.writeRef16]

theorem State.regByte_writeRef8 (s : State) (ref : Ref) (v : Byte) {o : RegOff} (h : o ∉ ref.regBytes8) :
    (s.writeRef8 ref v).regByte o = s.regByte o := by
  cases ref <;> simp_all [State.writeRef8, Ref.regBytes8, State.regByte_setRegByte]

theorem State.regByte_writeRef16 (s : State) (ref : Ref) (v : Word) {o : RegOff} (h : o ∉ ref.regBytes16) :
    (s.writeRef16 ref v).regByte o = s.regByte o := by
  cases ref <;> simp_all [State.writeRef16, Ref.regBytes16, State.regByte_setRegWord]

theorem State.readByte_writeRef8 (s : State) (ref : Ref) (v : Byte) {a : Word} (h : a ∉ ref.memBytes8) :
    (s.writeRef8 ref v).readByte a = s.readByte a := by
  cases ref <;> simp_all [State.writeRef8, Ref.memBytes8, State.readByte_writeByte]

theorem State.readByte_writeRef16 (s : State) (ref : Ref) (v : Word) {a : Word} (h : a ∉ ref.memBytes16) :
    (s.writeRef16 ref v).readByte a = s.readByte a := by
  cases ref <;> simp_all [State.writeRef16, Ref.memBytes16, State.readByte_writeWord]

theorem State.wf_writeRef8 {s : State} (ref : Ref) (v : Byte) (h : s.mem.wf = true) : (s.writeRef8 ref v).mem.wf = true := by
  cases ref with
  | reg o => exact h
  | mem a => exact State.wf_writeByte a v h

theorem State.wf_writeRef16 {s : State} (ref : Ref) (v : Word) (h : s.mem.wf = true) :
    (s.writeRef16 ref v).mem.wf = true := by
  cases ref with
  | reg o => exact h
  | mem a => exact State.wf_writeWord a v h

/-! ### Frames of the writes -/

theorem Frame.refl (s : State) : Frame s s [] [] := ⟨fun _ _ => rfl, fun _ _ => rfl, rfl, rfl, rfl⟩

/-- A later change of flags or of ip is outside a frame. -/
theorem Frame.setFlags {s t : State} {rs : List RegOff} {as : List Word} (h : Frame s t rs as) (f : Flags) :
    Frame s (t.setFlags f) rs as := h

theorem Frame.setIp {s t : State} {rs : List RegOff} {as : List Word} (h : Frame s t rs as) (x : Word) :
    Frame s (t.setIp x) rs as := h

theorem Frame.trans {s t u : State} {rs rs' : List RegOff} {as as' : List Word} (h : Frame s t rs as)
    (h' : Frame t u rs' as') : Frame s u (rs ++ rs') (as ++ as') := by
  obtain ⟨h1, h2, h3, h4, h5⟩ := h
  obtain ⟨g1, g2, g3, g4, g5⟩ := h'
  refine ⟨fun o ho => ?_, fun a ha => ?_, g3.trans h3, g4.trans h4, g5.trans h5⟩
  · rw [List.mem_append, not_or] at ho
    exact (g1 o ho.2).trans (h1 o ho.1)
  · rw [List.mem_append, not_or] at ha
    exact (g2 a ha.2).trans (h2 a ha.1)

theorem Frame.writeRef8 (s : State) (ref : Ref) (v : Byte) : Frame s (s.writeRef8 ref v) ref.regBytes8 ref.memBytes8 :=
  ⟨fun _ h => s.regByte_writeRef8 ref v h, fun _ h => s.readByte_writeRef8 ref v h, by simp, by simp, by simp⟩

theorem Frame.writeRef16 (s : State) (ref : Ref) (v : Word) : Frame s (s.writeRef16 ref v) ref.regBytes16 ref.memBytes16 :=
  ⟨fun _ h => s.regByte_writeRef16 ref v h, fun _ h => s.readByte_writeRef16 ref v h, by simp, by simp, by simp⟩

theorem Frame.setReg8 (s : State) (r : RegNum) (v : Byte) : Frame s (s.setReg8 r v) (regBytes8 r) [] :=
  Frame.writeRef8 s (.reg (regOffset r)) v

theorem Frame.setReg16 (s : State) (r : RegNum) (v : Word) : Frame s (s.setReg16 r v) (regBytes16 r) [] :=
  Frame.writeRef16 s (.reg (regOffset r)) v

/-- Raising a terminal condition writes no data. -/
theorem SameData.raise (s : State) (c : Status) : SameData s (s.raise c) := ⟨by simp, by simp, by simp⟩

end Sys2Proof.Machine
end

