-- ==== Sys2Proof/Laws/Stack.lean ====
section
/-! SUPPORT. The stack helper in closed form (43_stack.md R160 to R163), and everything a push or a pop can do. -/

namespace Sys2Proof.Machine

/-- Of two writes of one register the second stands. -/
theorem State.setReg16_setReg16 (s : State) (r : RegNum) (v w : Word) :
    (s.setReg16 r v).setReg16 r w = s.setReg16 r w := by
  refine congrArg (fun x : RegFile => { s with rb := x }) (Vector.ext fun i hi => ?_)
  simp only [State.setReg16, State.setRegWord, State.setRegByte_rb, Vector.getElem_set]
  split <;> [rfl; (split <;> rfl)]

/-- A register write commutes with a memory write. -/
theorem State.writeByte_setReg16 (s : State) (r : RegNum) (v : Word) (a : Word) (b : Byte) :
    (s.setReg16 r v).writeByte a b = (s.writeByte a b).setReg16 r v := rfl

theorem Word.sub_one_sub_one (a : Word) : a - 1 - 1 = a - 2 := by
  simp only [BitVec.sub_eq_add_neg, BitVec.add_assoc]
  exact congrArg (a + ·) (by decide)

theorem Word.add_one_add_one (a : Word) : a + 1 + 1 = a + 2 := by
  simp only [BitVec.add_assoc]
  exact congrArg (a + ·) (by decide)

theorem Word.sub_two_add_one (a : Word) : a - 2 + 1 = a - 1 := by
  simp only [BitVec.sub_eq_add_neg, BitVec.add_assoc]
  exact congrArg (a + ·) (by decide)

theorem Word.sub_two_add_two (a : Word) : a - 2 + 2 = a := BitVec.sub_add_cancel a 2

theorem Word.sub_one_ne (a : Word) : a - 1 ≠ a := by
  intro h
  have := congrArg (· + 1) h
  simp only [BitVec.sub_add_cancel] at this
  exact Word.succ_ne a this.symm

/-- `push16` in closed form. -/
theorem State.push16_eq (s : State) (v : Word) :
    s.push16 v = ((s.writeByte s.sp (hiByte v)).writeByte (s.sp - 1) (loByte v)).setReg16 .sp (s.sp - 2) := by
  simp only [State.push16, State.push8, State.sp_setReg16_sp, State.writeByte_setReg16, State.setReg16_setReg16,
    Word.sub_one_sub_one]

/-- `pop16` in closed form. -/
theorem State.pop16_eq (s : State) : s.pop16 = (s.readWord (s.sp + 1), s.setReg16 .sp (s.sp + 2)) := by
  simp only [State.pop16, State.pop8, State.sp_setReg16_sp, State.setReg16_setReg16, State.readByte_setReg16,
    State.readWord, Word.add_one_add_one]

@[simp] theorem State.push16_sp (s : State) (v : Word) : (s.push16 v).sp = s.sp - 2 := by
  simp [State.push16_eq]

@[simp] theorem State.pop16_sp (s : State) : s.pop16.2.sp = s.sp + 2 := by
  simp [State.pop16_eq]

/-- Where a pushed word lies: the high byte at the old SP, the low byte one below it. -/
theorem State.readByte_push16 (s : State) (v a : Word) :
    (s.push16 v).readByte a = if a = s.sp - 1 then loByte v else if a = s.sp then hiByte v else s.readByte a := by
  simp only [State.push16_eq, State.readByte_setReg16, State.readByte_writeByte]

/-- The pushed word is the little-endian word at the new SP plus 1 (43_stack.md R163). -/
theorem State.readWord_push16 (s : State) (v : Word) : (s.push16 v).readWord ((s.push16 v).sp + 1) = v := by
  simp only [State.push16_sp, State.readWord, State.readByte_push16, Word.sub_two_add_one, BitVec.sub_add_cancel,
    if_true, Ne.symm (Word.sub_one_ne s.sp), if_false, cat_hiByte_loByte]

/-- A pop after a push gives the word back and the register file it started from. -/
theorem State.pop16_push16 (s : State) (v : Word) :
    (s.push16 v).pop16.1 = v ∧ ∀ o, (s.push16 v).pop16.2.regByte o = s.regByte o := by
  constructor
  · rw [State.pop16_eq]
    exact s.readWord_push16 v
  · intro o
    rw [State.pop16_eq, State.push16_sp, Word.sub_two_add_two, State.push16_eq]
    simp only [State.setReg16_setReg16, State.regByte_setReg16, State.regByte_writeByte]
    split
    · next h => subst h; simp [State.sp, State.reg16, State.regWord]
    · split
      · next h => subst h; simp [State.sp, State.reg16, State.regWord]
      · rfl

theorem Frame.writeByte (s : State) (a : Word) (v : Byte) : Frame s (s.writeByte a v) [] [a] :=
  Frame.writeRef8 s (.mem a) v

theorem Frame.push16 (s : State) (v : Word) : Frame s (s.push16 v) (regBytes16 .sp) [s.sp, s.sp - 1] := by
  rw [State.push16_eq]
  exact ((Frame.writeByte s _ _).trans (Frame.writeByte _ _ _)).trans (Frame.setReg16 _ _ _)

theorem Frame.pop16 (s : State) : Frame s s.pop16.2 (regBytes16 .sp) [] := by
  rw [State.pop16_eq]
  exact Frame.setReg16 s .sp _

theorem State.wf_push16 {s : State} (v : Word) (h : s.mem.wf = true) : (s.push16 v).mem.wf = true := by
  rw [State.push16_eq]
  exact State.wf_writeByte _ _ (State.wf_writeByte _ _ h)

/-- Everything `withPush` can do: the push and what follows it, or the stack fault, under `P_STACK_WRAP = Fault` only. -/
theorem withPush_cases (s : State) (v : Word) (k : State → State) :
    (s.pushFaults = false ∧ withPush s v k = .next (k (s.push16 v))) ∨
    (s.pushFaults = true ∧ s.params.stackWrap = .fault ∧ withPush s v k = .next (s.raise .stackFault)) := by
  cases h : s.pushFaults with
  | false => exact .inl ⟨rfl, by simp [withPush, h]⟩
  | true => exact .inr ⟨rfl, by simp_all [State.pushFaults], by simp [withPush, h]⟩

/-- Everything `withPop` can do. -/
theorem withPop_cases (s : State) (k : Word → State → State) :
    (s.popFaults = false ∧ withPop s k = .next (k s.pop16.1 s.pop16.2)) ∨
    (s.popFaults = true ∧ s.params.stackWrap = .fault ∧ withPop s k = .next (s.raise .stackFault)) := by
  cases h : s.popFaults with
  | false => exact .inl ⟨rfl, by simp [withPop, h]⟩
  | true => exact .inr ⟨rfl, by simp_all [State.popFaults], by simp [withPop, h]⟩

end Sys2Proof.Machine
end

