-- ==== Sys2Proof/Laws/Exec.lean ====
section
/-! SUPPORT. Everything an instruction can do, said once: it completes, or it raises the one terminal condition its rule
names. -/

namespace Sys2Proof.Machine

/-- What a completed instruction leaves alone: the status, the model's own fields and the canonical form of memory. -/
def Completes (s t : State) : Prop :=
  t.status = s.status ∧ t.params = s.params ∧ t.draws = s.draws ∧ (s.mem.wf = true → t.mem.wf = true)

/-- What an instruction of a given shape can do. -/
inductive Outcomes (i : Instr) (s : State) : State → Prop where
  | completes {t : State} (h : Completes s t) : Outcomes i s t
  | badMode (reg : RegNum) (rm : RM) (hi : i.modRM = some (reg, rm)) (hu : rm.isUndefined = true) :
      Outcomes i s (s.raise (.aborted (.badAddressingMode (rm.modRMByte reg))))
  | stackFault (hi : (∃ r, i = .pushR16 r) ∨ (∃ r, i = .popR16 r) ∨ (∃ rel, i = .callRel16 rel) ∨ i = .ret)
      (hp : s.params.stackWrap = .fault) : Outcomes i s (s.raise .stackFault)
  | halts (hi : i = .hlt) : Outcomes i s (s.raise .halted)

theorem Completes.of_mem {s t : State} (h1 : t.status = s.status) (h2 : t.params = s.params) (h3 : t.draws = s.draws)
    (h4 : t.mem = s.mem) : Completes s t :=
  ⟨h1, h2, h3, fun h => by rwa [h4]⟩

theorem Completes.writeRef8 (s : State) (ref : Ref) (v : Byte) : Completes s (s.writeRef8 ref v) :=
  ⟨by simp, by simp, by simp, State.wf_writeRef8 ref v⟩

theorem Completes.writeRef16 (s : State) (ref : Ref) (v : Word) : Completes s (s.writeRef16 ref v) :=
  ⟨by simp, by simp, by simp, State.wf_writeRef16 ref v⟩

theorem Completes.push16 (s : State) (v : Word) : Completes s (s.push16 v) :=
  have h := Frame.push16 s v
  ⟨h.2.2.1, h.2.2.2.1, h.2.2.2.2, State.wf_push16 v⟩

theorem Completes.pop16 (s : State) : Completes s s.pop16.2 := by
  rw [State.pop16_eq]
  exact .of_mem rfl rfl rfl rfl

theorem Completes.trans {s t u : State} (h : Completes s t) (h' : Completes t u) : Completes s u :=
  ⟨h'.1.trans h.1, h'.2.1.trans h.2.1, h'.2.2.1.trans h.2.2.1, h'.2.2.2 ∘ h.2.2.2⟩

theorem Completes.setFlags {s t : State} (h : Completes s t) (f : Flags) : Completes s (t.setFlags f) := h

theorem Completes.setIp {s t : State} (h : Completes s t) (x : Word) : Completes s (t.setIp x) := h

theorem Outcomes.of_operand {i : Instr} {s : State} {reg : RegNum} {rm : RM} (hi : i.modRM = some (reg, rm))
    {k : Ref → State} (hk : ∀ ref, Completes s (k ref)) : ∃ t, withOperand reg rm s k = .next t ∧ Outcomes i s t := by
  rcases withOperand_cases reg rm s k with ⟨ref, -, h⟩ | ⟨hu, h⟩
  · exact ⟨_, h, .completes (hk ref)⟩
  · exact ⟨_, h, .badMode reg rm hi hu⟩

theorem Outcomes.of_push {i : Instr} {s : State} {v : Word} {k : State → State}
    (hi : (∃ r, i = .pushR16 r) ∨ (∃ r, i = .popR16 r) ∨ (∃ rel, i = .callRel16 rel) ∨ i = .ret)
    (hk : Completes s (k (s.push16 v))) : ∃ t, withPush s v k = .next t ∧ Outcomes i s t := by
  rcases withPush_cases s v k with ⟨-, h⟩ | ⟨-, hp, h⟩
  · exact ⟨_, h, .completes hk⟩
  · exact ⟨_, h, .stackFault hi hp⟩

theorem Outcomes.of_pop {i : Instr} {s : State} {k : Word → State → State}
    (hi : (∃ r, i = .pushR16 r) ∨ (∃ r, i = .popR16 r) ∨ (∃ rel, i = .callRel16 rel) ∨ i = .ret)
    (hk : Completes s (k s.pop16.1 s.pop16.2)) : ∃ t, withPop s k = .next t ∧ Outcomes i s t := by
  rcases withPop_cases s k with ⟨-, h⟩ | ⟨-, hp, h⟩
  · exact ⟨_, h, .completes hk⟩
  · exact ⟨_, h, .stackFault hi hp⟩

/-! ### The shapes of the instructions -/

theorem outcomes_rm8 {i : Instr} {s : State} {reg : RegNum} {rm : RM} (hi : i.modRM = some (reg, rm))
    (f : Ref → Byte) (g : Ref → Flags) :
    ∃ t, withOperand reg rm s (fun ref => (s.writeRef8 ref (f ref)).setFlags (g ref)) = .next t ∧ Outcomes i s t :=
  Outcomes.of_operand hi fun ref => (Completes.writeRef8 s ref _).setFlags _

theorem outcomes_rm16 {i : Instr} {s : State} {reg : RegNum} {rm : RM} (hi : i.modRM = some (reg, rm))
    (f : Ref → Word) (g : Ref → Flags) :
    ∃ t, withOperand reg rm s (fun ref => (s.writeRef16 ref (f ref)).setFlags (g ref)) = .next t ∧ Outcomes i s t :=
  Outcomes.of_operand hi fun ref => (Completes.writeRef16 s ref _).setFlags _

theorem outcomes_reg {i : Instr} {s : State} {reg : RegNum} {rm : RM} (hi : i.modRM = some (reg, rm))
    {k : Ref → State} (hk : ∀ ref, (k ref).status = s.status ∧ (k ref).params = s.params ∧ (k ref).draws = s.draws ∧
      (k ref).mem = s.mem) : ∃ t, withOperand reg rm s k = .next t ∧ Outcomes i s t :=
  Outcomes.of_operand hi fun ref => Completes.of_mem (hk ref).1 (hk ref).2.1 (hk ref).2.2.1 (hk ref).2.2.2

theorem outcomes_next {i : Instr} {s t : State} (h1 : t.status = s.status) (h2 : t.params = s.params)
    (h3 : t.draws = s.draws) (h4 : t.mem = s.mem) : ∃ u, (.next t : Outcome) = .next u ∧ Outcomes i s u :=
  ⟨t, rfl, .completes (.of_mem h1 h2 h3 h4)⟩

theorem outcomes_jump (i : Instr) (taken : Bool) (rel : Byte) (s : State) :
    ∃ t, jumpIf taken rel s = .next t ∧ Outcomes i s t := by
  unfold jumpIf
  split <;> exact outcomes_next rfl rfl rfl rfl

/-- Everything an instruction can do, in any state: a next state that completes it or raises its own condition. -/
theorem exec_cases (i : Instr) (s : State) : ∃ t, exec i s = .next t ∧ Outcomes i s t := by
  cases i
  case pushR16 r => exact Outcomes.of_push (k := id) (.inl ⟨r, rfl⟩) (Completes.push16 s _)
  case popR16 r =>
    exact Outcomes.of_pop (k := fun v u => u.setReg16 r v) (.inr (.inl ⟨r, rfl⟩))
      ((Completes.pop16 s).trans (.of_mem rfl rfl rfl rfl))
  case callRel16 rel =>
    exact Outcomes.of_push (k := fun t => t.setIp (s.ip + rel)) (.inr (.inr (.inl ⟨rel, rfl⟩))) (Completes.push16 s _)
  case ret =>
    exact Outcomes.of_pop (k := fun v u => u.setIp v) (.inr (.inr (.inr rfl))) (Completes.pop16 s)
  case hlt => exact ⟨_, rfl, .halts rfl⟩
  case xchgEbGb dst src =>
    exact Outcomes.of_operand rfl fun ref => (Completes.writeRef8 s ref _).trans (.of_mem rfl rfl rfl rfl)
  case movEbGb dst src => exact Outcomes.of_operand rfl fun ref => Completes.writeRef8 s ref _
  case movEvGv dst src => exact Outcomes.of_operand rfl fun ref => Completes.writeRef16 s ref _
  case movEbIb dst imm => exact Outcomes.of_operand rfl fun ref => Completes.writeRef8 s ref _
  case movEvIw dst imm => exact Outcomes.of_operand rfl fun ref => Completes.writeRef16 s ref _
  all_goals first
    | exact outcomes_jump _ _ _ s
    | exact outcomes_next rfl rfl rfl rfl
    | exact outcomes_reg rfl fun _ => ⟨rfl, rfl, rfl, rfl⟩
    | exact outcomes_rm8 rfl _ _
    | exact outcomes_rm16 rfl _ _

end Sys2Proof.Machine
end

