-- ==== Sys2Proof/Laws/PerInstr.lean ====
section
/-! SUPPORT. Statements about every instruction as syntax, one lemma per constructor of Instr. -/

namespace Sys2Proof.Laws.EncodedLength

/-- An instruction is encoded in 1 to 6 bytes (30_encoding.md R60). -/
def Statement (i : Instr) : Prop := 1 ≤ (encode i).length ∧ (encode i).length ≤ 6

/-- A ModR/M byte and its displacement are 1 to 3 bytes (30_encoding.md R65). -/
theorem rm_length (rm : RM) (reg : RegNum) : 1 ≤ (rm.encode reg).length ∧ (rm.encode reg).length ≤ 3 := by
  cases rm <;> simp [RM.encode, RM.dispBytes]

theorem imm8_length (rm : RM) (imm : Byte) : (rm.imm8Bytes imm).length ≤ 1 := by
  unfold RM.imm8Bytes; split <;> simp

theorem imm16_length (rm : RM) (imm : Word) : (rm.imm16Bytes imm).length ≤ 2 := by
  unfold RM.imm16Bytes; split <;> simp

theorem of_rm {i : Instr} {op : Byte} (rm : RM) (reg : RegNum) (h : encode i = op :: rm.encode reg) : Statement i := by
  have := rm_length rm reg
  simp only [Statement, h, List.length_cons]
  omega

theorem of_rm_imm8 {i : Instr} {op : Byte} (rm : RM) (reg : RegNum) (imm : Byte)
    (h : encode i = op :: (rm.encode reg ++ rm.imm8Bytes imm)) : Statement i := by
  have := rm_length rm reg
  have := imm8_length rm imm
  simp only [Statement, h, List.length_cons, List.length_append]
  omega

theorem of_rm_imm16 {i : Instr} {op : Byte} (rm : RM) (reg : RegNum) (imm : Word)
    (h : encode i = op :: (rm.encode reg ++ rm.imm16Bytes imm)) : Statement i := by
  have := rm_length rm reg
  have := imm16_length rm imm
  simp only [Statement, h, List.length_cons, List.length_append]
  omega

theorem addEbGb (dst : RM) (src : RegNum) : Statement (.addEbGb dst src) := of_rm dst src rfl

theorem addEvGv (dst : RM) (src : RegNum) : Statement (.addEvGv dst src) := of_rm dst src rfl

theorem addGbEb (dst : RegNum) (src : RM) : Statement (.addGbEb dst src) := of_rm src dst rfl

theorem addGvEv (dst : RegNum) (src : RM) : Statement (.addGvEv dst src) := of_rm src dst rfl

theorem orEbGb (dst : RM) (src : RegNum) : Statement (.orEbGb dst src) := of_rm dst src rfl

theorem orEvGv (dst : RM) (src : RegNum) : Statement (.orEvGv dst src) := of_rm dst src rfl

theorem orGbEb (dst : RegNum) (src : RM) : Statement (.orGbEb dst src) := of_rm src dst rfl

theorem orGvEv (dst : RegNum) (src : RM) : Statement (.orGvEv dst src) := of_rm src dst rfl

theorem adcEbGb (dst : RM) (src : RegNum) : Statement (.adcEbGb dst src) := of_rm dst src rfl

theorem adcEvGv (dst : RM) (src : RegNum) : Statement (.adcEvGv dst src) := of_rm dst src rfl

theorem adcGbEb (dst : RegNum) (src : RM) : Statement (.adcGbEb dst src) := of_rm src dst rfl

theorem adcGvEv (dst : RegNum) (src : RM) : Statement (.adcGvEv dst src) := of_rm src dst rfl

theorem sbbEbGb (dst : RM) (src : RegNum) : Statement (.sbbEbGb dst src) := of_rm dst src rfl

theorem sbbEvGv (dst : RM) (src : RegNum) : Statement (.sbbEvGv dst src) := of_rm dst src rfl

theorem sbbGbEb (dst : RegNum) (src : RM) : Statement (.sbbGbEb dst src) := of_rm src dst rfl

theorem sbbGvEv (dst : RegNum) (src : RM) : Statement (.sbbGvEv dst src) := of_rm src dst rfl

theorem andEbGb (dst : RM) (src : RegNum) : Statement (.andEbGb dst src) := of_rm dst src rfl

theorem andEvGv (dst : RM) (src : RegNum) : Statement (.andEvGv dst src) := of_rm dst src rfl

theorem andGbEb (dst : RegNum) (src : RM) : Statement (.andGbEb dst src) := of_rm src dst rfl

theorem andGvEv (dst : RegNum) (src : RM) : Statement (.andGvEv dst src) := of_rm src dst rfl

theorem subEbGb (dst : RM) (src : RegNum) : Statement (.subEbGb dst src) := of_rm dst src rfl

theorem subEvGv (dst : RM) (src : RegNum) : Statement (.subEvGv dst src) := of_rm dst src rfl

theorem subGbEb (dst : RegNum) (src : RM) : Statement (.subGbEb dst src) := of_rm src dst rfl

theorem subGvEv (dst : RegNum) (src : RM) : Statement (.subGvEv dst src) := of_rm src dst rfl

theorem xorEbGb (dst : RM) (src : RegNum) : Statement (.xorEbGb dst src) := of_rm dst src rfl

theorem xorEvGv (dst : RM) (src : RegNum) : Statement (.xorEvGv dst src) := of_rm dst src rfl

theorem xorGbEb (dst : RegNum) (src : RM) : Statement (.xorGbEb dst src) := of_rm src dst rfl

theorem xorGvEv (dst : RegNum) (src : RM) : Statement (.xorGvEv dst src) := of_rm src dst rfl

theorem cmpEbGb (dst : RM) (src : RegNum) : Statement (.cmpEbGb dst src) := of_rm dst src rfl

theorem cmpEvGv (dst : RM) (src : RegNum) : Statement (.cmpEvGv dst src) := of_rm dst src rfl

theorem cmpGbEb (dst : RegNum) (src : RM) : Statement (.cmpGbEb dst src) := of_rm src dst rfl

theorem cmpGvEv (dst : RegNum) (src : RM) : Statement (.cmpGvEv dst src) := of_rm src dst rfl

theorem addEbIb (dst : RM) (imm : Byte) : Statement (.addEbIb dst imm) := of_rm_imm8 dst AluOp.add.code imm rfl

theorem orEbIb (dst : RM) (imm : Byte) : Statement (.orEbIb dst imm) := of_rm_imm8 dst AluOp.or.code imm rfl

theorem adcEbIb (dst : RM) (imm : Byte) : Statement (.adcEbIb dst imm) := of_rm_imm8 dst AluOp.adc.code imm rfl

theorem sbbEbIb (dst : RM) (imm : Byte) : Statement (.sbbEbIb dst imm) := of_rm_imm8 dst AluOp.sbb.code imm rfl

theorem andEbIb (dst : RM) (imm : Byte) : Statement (.andEbIb dst imm) := of_rm_imm8 dst AluOp.and.code imm rfl

theorem subEbIb (dst : RM) (imm : Byte) : Statement (.subEbIb dst imm) := of_rm_imm8 dst AluOp.sub.code imm rfl

theorem xorEbIb (dst : RM) (imm : Byte) : Statement (.xorEbIb dst imm) := of_rm_imm8 dst AluOp.xor.code imm rfl

theorem cmpEbIb (dst : RM) (imm : Byte) : Statement (.cmpEbIb dst imm) := of_rm_imm8 dst AluOp.cmp.code imm rfl

theorem addEvIw (dst : RM) (imm : Word) : Statement (.addEvIw dst imm) := of_rm_imm16 dst AluOp.add.code imm rfl

theorem orEvIw (dst : RM) (imm : Word) : Statement (.orEvIw dst imm) := of_rm_imm16 dst AluOp.or.code imm rfl

theorem adcEvIw (dst : RM) (imm : Word) : Statement (.adcEvIw dst imm) := of_rm_imm16 dst AluOp.adc.code imm rfl

theorem sbbEvIw (dst : RM) (imm : Word) : Statement (.sbbEvIw dst imm) := of_rm_imm16 dst AluOp.sbb.code imm rfl

theorem andEvIw (dst : RM) (imm : Word) : Statement (.andEvIw dst imm) := of_rm_imm16 dst AluOp.and.code imm rfl

theorem subEvIw (dst : RM) (imm : Word) : Statement (.subEvIw dst imm) := of_rm_imm16 dst AluOp.sub.code imm rfl

theorem xorEvIw (dst : RM) (imm : Word) : Statement (.xorEvIw dst imm) := of_rm_imm16 dst AluOp.xor.code imm rfl

theorem cmpEvIw (dst : RM) (imm : Word) : Statement (.cmpEvIw dst imm) := of_rm_imm16 dst AluOp.cmp.code imm rfl

theorem addEvSIb (dst : RM) (imm : Byte) : Statement (.addEvSIb dst imm) := of_rm_imm8 dst AluOp.add.code imm rfl

theorem orEvSIb (dst : RM) (imm : Byte) : Statement (.orEvSIb dst imm) := of_rm_imm8 dst AluOp.or.code imm rfl

theorem adcEvSIb (dst : RM) (imm : Byte) : Statement (.adcEvSIb dst imm) := of_rm_imm8 dst AluOp.adc.code imm rfl

theorem sbbEvSIb (dst : RM) (imm : Byte) : Statement (.sbbEvSIb dst imm) := of_rm_imm8 dst AluOp.sbb.code imm rfl

theorem andEvSIb (dst : RM) (imm : Byte) : Statement (.andEvSIb dst imm) := of_rm_imm8 dst AluOp.and.code imm rfl

theorem subEvSIb (dst : RM) (imm : Byte) : Statement (.subEvSIb dst imm) := of_rm_imm8 dst AluOp.sub.code imm rfl

theorem xorEvSIb (dst : RM) (imm : Byte) : Statement (.xorEvSIb dst imm) := of_rm_imm8 dst AluOp.xor.code imm rfl

theorem cmpEvSIb (dst : RM) (imm : Byte) : Statement (.cmpEvSIb dst imm) := of_rm_imm8 dst AluOp.cmp.code imm rfl

theorem incR16 (r : RegNum) : Statement (.incR16 r) := by simp [Statement, encode]

theorem decR16 (r : RegNum) : Statement (.decR16 r) := by simp [Statement, encode]

theorem pushR16 (r : RegNum) : Statement (.pushR16 r) := by simp [Statement, encode]

theorem popR16 (r : RegNum) : Statement (.popR16 r) := by simp [Statement, encode]

theorem movEbGb (dst : RM) (src : RegNum) : Statement (.movEbGb dst src) := of_rm dst src rfl

theorem movEvGv (dst : RM) (src : RegNum) : Statement (.movEvGv dst src) := of_rm dst src rfl

theorem movGbEb (dst : RegNum) (src : RM) : Statement (.movGbEb dst src) := of_rm src dst rfl

theorem movGvEv (dst : RegNum) (src : RM) : Statement (.movGvEv dst src) := of_rm src dst rfl

theorem movR8Ib (r : RegNum) (imm : Byte) : Statement (.movR8Ib r imm) := by simp [Statement, encode]

theorem movR16Iw (r : RegNum) (imm : Word) : Statement (.movR16Iw r imm) := by simp [Statement, encode]

theorem movEbIb (dst : RM) (imm : Byte) : Statement (.movEbIb dst imm) := of_rm_imm8 dst 0 imm rfl

theorem movEvIw (dst : RM) (imm : Word) : Statement (.movEvIw dst imm) := of_rm_imm16 dst 0 imm rfl

theorem xchgEbGb (dst : RM) (src : RegNum) : Statement (.xchgEbGb dst src) := of_rm dst src rfl

theorem xchgAxCx : Statement .xchgAxCx := by simp [Statement, encode]

theorem xchgAxDx : Statement .xchgAxDx := by simp [Statement, encode]

theorem xchgAxBx : Statement .xchgAxBx := by simp [Statement, encode]

theorem xchgAxSp : Statement .xchgAxSp := by simp [Statement, encode]

theorem xchgAxBp : Statement .xchgAxBp := by simp [Statement, encode]

theorem xchgAxSi : Statement .xchgAxSi := by simp [Statement, encode]

theorem xchgAxDi : Statement .xchgAxDi := by simp [Statement, encode]

theorem incEb (dst : RM) : Statement (.incEb dst) := of_rm dst 0 rfl

theorem decEb (dst : RM) : Statement (.decEb dst) := of_rm dst 1 rfl

theorem jbRel8 (rel : Byte) : Statement (.jbRel8 rel) := by simp [Statement, encode]

theorem jzRel8 (rel : Byte) : Statement (.jzRel8 rel) := by simp [Statement, encode]

theorem jnzRel8 (rel : Byte) : Statement (.jnzRel8 rel) := by simp [Statement, encode]

theorem jbeRel8 (rel : Byte) : Statement (.jbeRel8 rel) := by simp [Statement, encode]

theorem jaRel8 (rel : Byte) : Statement (.jaRel8 rel) := by simp [Statement, encode]

theorem jnsRel8 (rel : Byte) : Statement (.jnsRel8 rel) := by simp [Statement, encode]

theorem jmpRel8 (rel : Byte) : Statement (.jmpRel8 rel) := by simp [Statement, encode]

theorem callRel16 (rel : Word) : Statement (.callRel16 rel) := by simp [Statement, encode]

theorem ret : Statement .ret := by simp [Statement, encode]

theorem nop : Statement .nop := by simp [Statement, encode]

theorem stc : Statement .stc := by simp [Statement, encode]

theorem hlt : Statement .hlt := by simp [Statement, encode]

end Sys2Proof.Laws.EncodedLength
end

