-- ==== Sys2Proof/Laws/Step.lean ====
section
/-! SUPPORT. What a step can do, said once (30_encoding.md R78). -/

namespace Sys2Proof.Machine

/-- A step from a terminal status changes nothing. -/
theorem step_of_terminal {s : State} (h : s.status ≠ .running) : step s = .next s := by
  simp [step, h]

/-- A running step whose bytes decode runs the instruction, with ip past them. -/
theorem step_of_decode {s : State} {i : Instr} {rest : List Byte} (h : s.status = .running)
    (hd : decode s.fetchWindow = .ok (i, rest)) : step s = exec i (s.pastFetched rest) := by
  simp [step, h, hd]

/-- A running step whose bytes are no instruction raises their terminal condition. -/
theorem step_of_error {s : State} {e : DecodeError} (h : s.status = .running) (hd : decode s.fetchWindow = .error e) :
    step s = s.rejectFetched e := by
  simp [step, h, hd]

/-- Everything a step can do. -/
theorem step_cases (s : State) :
    (s.status ≠ .running ∧ step s = .next s) ∨
    (∃ i rest, s.status = .running ∧ decode s.fetchWindow = .ok (i, rest) ∧ step s = exec i (s.pastFetched rest)) ∨
    (∃ e, s.status = .running ∧ decode s.fetchWindow = .error e ∧ step s = s.rejectFetched e) := by
  by_cases h : s.status = .running
  · cases hd : decode s.fetchWindow with
    | ok p => exact .inr (.inl ⟨p.1, p.2, h, rfl, step_of_decode h hd⟩)
    | error e => exact .inr (.inr ⟨e, h, rfl, step_of_error h hd⟩)
  · exact .inl ⟨h, step_of_terminal h⟩

/-! ### pastFetched -/

@[simp] theorem State.pastFetched_mem (s : State) (rest : List Byte) : (s.pastFetched rest).mem = s.mem := rfl
@[simp] theorem State.pastFetched_rb (s : State) (rest : List Byte) : (s.pastFetched rest).rb = s.rb := rfl
@[simp] theorem State.pastFetched_flags (s : State) (rest : List Byte) : (s.pastFetched rest).flags = s.flags := rfl
@[simp] theorem State.pastFetched_status (s : State) (rest : List Byte) : (s.pastFetched rest).status = s.status := rfl
@[simp] theorem State.pastFetched_params (s : State) (rest : List Byte) : (s.pastFetched rest).params = s.params := rfl
@[simp] theorem State.pastFetched_draws (s : State) (rest : List Byte) : (s.pastFetched rest).draws = s.draws := rfl

end Sys2Proof.Machine
end

