-- ==== Sys2Proof/Machine/Assembly.lean ====
section
/-! DEFINITION. The spelling of instructions in the spec's assembler syntax (30_encoding.md R74 to R77). Spelling only: no
step reads it. An operand with an undefined (mode, rm) pair has no spelling. -/

namespace Sys2Proof

/-- The word register names (30_encoding.md R75; 10_state.md R22). -/
def wordRegName : RegNum → String
  | 0 => "AX"
  | 1 => "CX"
  | 2 => "DX"
  | 3 => "BX"
  | 4 => "SP"
  | 5 => "BP"
  | 6 => "SI"
  | 7 => "DI"

/-- The byte register names: numbers 4 to 7 are low bytes too (30_encoding.md R75; 10_state.md R23). -/
def byteRegName : RegNum → String
  | 0 => "AL"
  | 1 => "CL"
  | 2 => "DL"
  | 3 => "BL"
  | 4 => "SPL"
  | 5 => "BPL"
  | 6 => "SIL"
  | 7 => "DIL"

/-- One hexadecimal digit. -/
def hexDigit (d : BitVec 4) : String := (("0123456789ABCDEF".toList[d.toNat]?).getD '0').toString

/-- A byte as a number (30_encoding.md R74). -/
def spellByte (v : Byte) : String := "0x" ++ hexDigit (v.extractLsb' 4 4) ++ hexDigit (v.extractLsb' 0 4)

/-- A word as a number (30_encoding.md R74). -/
def spellWord (v : Word) : String :=
  "0x" ++ hexDigit (v.extractLsb' 12 4) ++ hexDigit (v.extractLsb' 8 4) ++ hexDigit (v.extractLsb' 4 4) ++
    hexDigit (v.extractLsb' 0 4)

/-- An r/m operand (30_encoding.md R76): `name` gives the register names of the width, `size` stands before a memory operand. -/
def RM.spell (name : RegNum → String) (size : String) : RM → Option String
  | .reg r         => some (name r)
  | .bxDi          => some (size ++ "[BX+DI]")
  | .direct d      => some (size ++ "[" ++ spellWord d ++ "]")
  | .bx            => some (size ++ "[BX]")
  | .bpDiDisp d    => some (size ++ "[BP+DI+" ++ spellByte d ++ "]")
  | .diDisp d      => some (size ++ "[DI+" ++ spellWord d ++ "]")
  | .bxDisp d      => some (size ++ "[BX+" ++ spellWord d ++ "]")
  | .undefined _ _ => none

/-- `MNEMONIC destination, source` (30_encoding.md R74). -/
def spellTwo (mnemonic dst src : String) : String := mnemonic ++ " " ++ dst ++ ", " ++ src

/-- The r/m operand is the destination and a register the source; the register gives the width. -/
def spellRmReg (mnemonic : String) (name : RegNum → String) (dst : RM) (src : RegNum) : Option String :=
  (dst.spell name "").map fun d => spellTwo mnemonic d (name src)

/-- A register is the destination and the r/m operand the source. -/
def spellRegRm (mnemonic : String) (name : RegNum → String) (dst : RegNum) (src : RM) : Option String :=
  (src.spell name "").map fun x => spellTwo mnemonic (name dst) x

/-- A byte r/m operand and an immediate. -/
def spellRm8Imm (mnemonic : String) (dst : RM) (imm : String) : Option String :=
  (dst.spell byteRegName "byte ").map fun d => spellTwo mnemonic d imm

/-- A word r/m operand and an immediate. -/
def spellRm16Imm (mnemonic : String) (dst : RM) (imm : String) : Option String :=
  (dst.spell wordRegName "word ").map fun d => spellTwo mnemonic d imm

/-- The spelling of an instruction; `next` is the address after its bytes, on which a relative target rests (44_control.md
R180). DESIGN CHOICE (log entry 14, safe): the sign-extended imm8 of opcode 83 (40_alu.md R118) is spelled as the byte that is
encoded, `0xFF` for -1. The spec fixes no spelling of it: R118 writes `-1`, its vector AF19 `sext(0xFF)`, and 30_encoding.md
R74 only the form `0x`. -/
def Instr.spell (next : Word) : Instr → Option String
  | .addEbGb d r => spellRmReg "ADD" byteRegName d r
  | .addEvGv d r => spellRmReg "ADD" wordRegName d r
  | .addGbEb r d => spellRegRm "ADD" byteRegName r d
  | .addGvEv r d => spellRegRm "ADD" wordRegName r d
  | .orEbGb d r => spellRmReg "OR" byteRegName d r
  | .orEvGv d r => spellRmReg "OR" wordRegName d r
  | .orGbEb r d => spellRegRm "OR" byteRegName r d
  | .orGvEv r d => spellRegRm "OR" wordRegName r d
  | .adcEbGb d r => spellRmReg "ADC" byteRegName d r
  | .adcEvGv d r => spellRmReg "ADC" wordRegName d r
  | .adcGbEb r d => spellRegRm "ADC" byteRegName r d
  | .adcGvEv r d => spellRegRm "ADC" wordRegName r d
  | .sbbEbGb d r => spellRmReg "SBB" byteRegName d r
  | .sbbEvGv d r => spellRmReg "SBB" wordRegName d r
  | .sbbGbEb r d => spellRegRm "SBB" byteRegName r d
  | .sbbGvEv r d => spellRegRm "SBB" wordRegName r d
  | .andEbGb d r => spellRmReg "AND" byteRegName d r
  | .andEvGv d r => spellRmReg "AND" wordRegName d r
  | .andGbEb r d => spellRegRm "AND" byteRegName r d
  | .andGvEv r d => spellRegRm "AND" wordRegName r d
  | .subEbGb d r => spellRmReg "SUB" byteRegName d r
  | .subEvGv d r => spellRmReg "SUB" wordRegName d r
  | .subGbEb r d => spellRegRm "SUB" byteRegName r d
  | .subGvEv r d => spellRegRm "SUB" wordRegName r d
  | .xorEbGb d r => spellRmReg "XOR" byteRegName d r
  | .xorEvGv d r => spellRmReg "XOR" wordRegName d r
  | .xorGbEb r d => spellRegRm "XOR" byteRegName r d
  | .xorGvEv r d => spellRegRm "XOR" wordRegName r d
  | .cmpEbGb d r => spellRmReg "CMP" byteRegName d r
  | .cmpEvGv d r => spellRmReg "CMP" wordRegName d r
  | .cmpGbEb r d => spellRegRm "CMP" byteRegName r d
  | .cmpGvEv r d => spellRegRm "CMP" wordRegName r d
  | .addEbIb d v => spellRm8Imm "ADD" d (spellByte v)
  | .orEbIb d v => spellRm8Imm "OR" d (spellByte v)
  | .adcEbIb d v => spellRm8Imm "ADC" d (spellByte v)
  | .sbbEbIb d v => spellRm8Imm "SBB" d (spellByte v)
  | .andEbIb d v => spellRm8Imm "AND" d (spellByte v)
  | .subEbIb d v => spellRm8Imm "SUB" d (spellByte v)
  | .xorEbIb d v => spellRm8Imm "XOR" d (spellByte v)
  | .cmpEbIb d v => spellRm8Imm "CMP" d (spellByte v)
  | .addEvIw d v => spellRm16Imm "ADD" d (spellWord v)
  | .orEvIw d v => spellRm16Imm "OR" d (spellWord v)
  | .adcEvIw d v => spellRm16Imm "ADC" d (spellWord v)
  | .sbbEvIw d v => spellRm16Imm "SBB" d (spellWord v)
  | .andEvIw d v => spellRm16Imm "AND" d (spellWord v)
  | .subEvIw d v => spellRm16Imm "SUB" d (spellWord v)
  | .xorEvIw d v => spellRm16Imm "XOR" d (spellWord v)
  | .cmpEvIw d v => spellRm16Imm "CMP" d (spellWord v)
  | .addEvSIb d v => spellRm16Imm "ADD" d (spellByte v)
  | .orEvSIb d v => spellRm16Imm "OR" d (spellByte v)
  | .adcEvSIb d v => spellRm16Imm "ADC" d (spellByte v)
  | .sbbEvSIb d v => spellRm16Imm "SBB" d (spellByte v)
  | .andEvSIb d v => spellRm16Imm "AND" d (spellByte v)
  | .subEvSIb d v => spellRm16Imm "SUB" d (spellByte v)
  | .xorEvSIb d v => spellRm16Imm "XOR" d (spellByte v)
  | .cmpEvSIb d v => spellRm16Imm "CMP" d (spellByte v)
  | .incR16 r => some ("INC " ++ wordRegName r)
  | .decR16 r => some ("DEC " ++ wordRegName r)
  | .pushR16 r => some ("PUSH " ++ wordRegName r)
  | .popR16 r => some ("POP " ++ wordRegName r)
  | .movEbGb d r => spellRmReg "MOV" byteRegName d r
  | .movEvGv d r => spellRmReg "MOV" wordRegName d r
  | .movGbEb r d => spellRegRm "MOV" byteRegName r d
  | .movGvEv r d => spellRegRm "MOV" wordRegName r d
  | .movR8Ib r v => some (spellTwo "MOV" (byteRegName r) (spellByte v))
  | .movR16Iw r v => some (spellTwo "MOV" (wordRegName r) (spellWord v))
  | .movEbIb d v => spellRm8Imm "MOV" d (spellByte v)
  | .movEvIw d v => spellRm16Imm "MOV" d (spellWord v)
  | .xchgEbGb d r => spellRmReg "XCHG" byteRegName d r
  | .xchgAxCx => some "XCHG AX, CX"
  | .xchgAxDx => some "XCHG AX, DX"
  | .xchgAxBx => some "XCHG AX, BX"
  | .xchgAxSp => some "XCHG AX, SP"
  | .xchgAxBp => some "XCHG AX, BP"
  | .xchgAxSi => some "XCHG AX, SI"
  | .xchgAxDi => some "XCHG AX, DI"
  | .incEb d => (d.spell byteRegName "byte ").map ("INC " ++ ·)
  | .decEb d => (d.spell byteRegName "byte ").map ("DEC " ++ ·)
  | .jbRel8 rel => some ("JB " ++ spellWord (next + sext16 rel))
  | .jzRel8 rel => some ("JZ " ++ spellWord (next + sext16 rel))
  | .jnzRel8 rel => some ("JNZ " ++ spellWord (next + sext16 rel))
  | .jbeRel8 rel => some ("JBE " ++ spellWord (next + sext16 rel))
  | .jaRel8 rel => some ("JA " ++ spellWord (next + sext16 rel))
  | .jnsRel8 rel => some ("JNS " ++ spellWord (next + sext16 rel))
  | .jmpRel8 rel => some ("JMP " ++ spellWord (next + sext16 rel))
  | .callRel16 rel => some ("CALL " ++ spellWord (next + rel))
  | .ret => some "RET"
  | .nop => some "NOP"
  | .stc => some "STC"
  | .hlt => some "HLT"

/-- The aliases of the condition mnemonics (30_encoding.md R77). -/
def conditionAliases : List (String × List String) :=
  [("JB", ["JC", "JNAE"]), ("JZ", ["JE"]), ("JNZ", ["JNE"]), ("JBE", ["JNA"]), ("JA", ["JNBE"]), ("JNS", [])]

end Sys2Proof
end

