-- ==== Sys2Proof/Tests/Slice0.lean ====
section
/-! SUPPORT. Tests. Every expected value is the spec's: the tables of 95_test_vectors.md (a vector's number stands in the
comment before its test), or a word or a value written out by hand from the rule named there. At the end, the witnesses:
for every obligation with hypotheses, concrete values that meet all of them together. -/

namespace Sys2Proof.Tests

open Sys2Proof.Machine Sys2Proof.Spec

/-! ### Helpers -/

/-- The reset state, with the given parameters, ip and bytes from ip on. -/
def startWith (p : Config.Params) (ip : Word) (bytes : List Byte) : State :=
  ((State.resetWith p Config.ResetGpr.zero).setIp ip).placeBytes ip bytes

/-- The same with the spec's default parameters. -/
def start (ip : Word) (bytes : List Byte) : State := startWith Config.Params.default ip bytes

def wraps : Config.Params := { incDecCf := .recompute, stackWrap := .wrap }

def keepsCarry : Config.Params := { incDecCf := .preserve, stackWrap := .fault }

/-- A step from `s` answers the next state that `change` makes of `s`, and no other. -/
def goes (s : State) (change : State → State) : Bool :=
  match step s with
  | .next t => decide (t = change s)
  | .fault _ | .refused _ => false

/-- A step from `s` answers a state with the given status, with memory, registers and flags unchanged, and with ip as given
where it is given. -/
def stops (s : State) (status : Status) (ip : Option Word) : Bool :=
  match step s with
  | .next t =>
    decide (t.status = status) && decide (t.mem = s.mem) && decide (t.rb = s.rb) && decide (t.flags = s.flags) &&
      (match ip with
       | some a => decide (t.ip = a)
       | none => true)
  | .fault _ | .refused _ => false

/-- The bytes decode to the instruction, and none is left. -/
def reads (bytes : List Byte) (i : Instr) : Bool :=
  match decode bytes with
  | .ok (j, rest) => decide (j = i) && rest.isEmpty
  | .error _ => false

/-- The bytes are no instruction, for the reason given. -/
def rejects (bytes : List Byte) (e : DecodeError) : Bool :=
  match decode bytes with
  | .ok _ => false
  | .error f => decide (f = e)

/-! ### Well-formedness: each check refuses an ill-formed term -/

theorem test_wf_undefined_names_undefined_pair : (Instr.addEbGb (.undefined 0 0) .ax).wf = true := by decide

/-- (00, 001) is the defined pair of `[BX+DI]`. -/
theorem test_illformed_undefined_names_defined_pair : (Instr.addEbGb (.undefined 0 1) .ax).wf = false := by decide

theorem test_illformed_undefined_names_register_pair : (Instr.incEb (.undefined 3 5)).wf = false := by decide

/-- No immediate is fetched after an undefined operand. -/
theorem test_illformed_immediate_after_undefined8 : (Instr.movEbIb (.undefined 0 0) 1).wf = false := by decide

theorem test_illformed_immediate_after_undefined16 : (Instr.addEvIw (.undefined 1 7) 1).wf = false := by decide

theorem test_wf_no_immediate_after_undefined : (Instr.addEvIw (.undefined 1 7) 0).wf = true := by decide

/-! ### Decoding: for every constructor a word written out from 30_encoding.md R63 to R69 -/

theorem test_decode_add :
    reads [0x00, 0xC3] (.addEbGb (.reg .bx) .ax) = true ∧
    reads [0x01, 0xD8] (.addEvGv (.reg .ax) .bx) = true ∧
    reads [0x02, 0x07] (.addGbEb .ax .bx) = true ∧
    reads [0x03, 0xC0] (.addGvEv .ax (.reg .ax)) = true ∧
    reads [0x80, 0xC4, 0x01] (.addEbIb (.reg .sp) 0x01) = true ∧
    reads [0x81, 0x87, 0x00, 0x10, 0x01, 0x00] (.addEvIw (.bxDisp 0x1000) 0x0001) = true ∧
    reads [0x83, 0xC0, 0xFF] (.addEvSIb (.reg .ax) 0xFF) = true := by
  decide

theorem test_decode_or :
    reads [0x08, 0x01] (.orEbGb .bxDi .ax) = true ∧
    reads [0x09, 0x16, 0x34, 0x12] (.orEvGv (.direct 0x1234) .dx) = true ∧
    reads [0x0A, 0xC3] (.orGbEb .ax (.reg .bx)) = true ∧
    reads [0x0B, 0x5B, 0x80] (.orGvEv .bx (.bpDiDisp 0x80)) = true ∧
    reads [0x80, 0x0F, 0x07] (.orEbIb .bx 0x07) = true ∧
    reads [0x81, 0xC9, 0x34, 0x12] (.orEvIw (.reg .cx) 0x1234) = true ∧
    reads [0x83, 0x8D, 0x10, 0x00, 0xF0] (.orEvSIb (.diDisp 0x0010) 0xF0) = true := by
  decide

theorem test_decode_adc :
    reads [0x10, 0xE7] (.adcEbGb (.reg .di) .sp) = true ∧
    reads [0x11, 0xD8] (.adcEvGv (.reg .ax) .bx) = true ∧
    reads [0x12, 0x07] (.adcGbEb .ax .bx) = true ∧
    reads [0x13, 0x43, 0x00] (.adcGvEv .ax (.bpDiDisp 0x00)) = true ∧
    reads [0x80, 0xD1, 0x05] (.adcEbIb (.reg .cx) 0x05) = true ∧
    reads [0x81, 0x16, 0x00, 0x20, 0xCD, 0xAB] (.adcEvIw (.direct 0x2000) 0xABCD) = true ∧
    reads [0x83, 0xD0, 0x7F] (.adcEvSIb (.reg .ax) 0x7F) = true := by
  decide

theorem test_decode_sbb :
    reads [0x18, 0x85, 0x02, 0x00] (.sbbEbGb (.diDisp 0x0002) .ax) = true ∧
    reads [0x19, 0xD8] (.sbbEvGv (.reg .ax) .bx) = true ∧
    reads [0x1A, 0x5B, 0xFE] (.sbbGbEb .bx (.bpDiDisp 0xFE)) = true ∧
    reads [0x1B, 0xC0] (.sbbGvEv .ax (.reg .ax)) = true ∧
    reads [0x80, 0x19, 0x01] (.sbbEbIb .bxDi 0x01) = true ∧
    reads [0x81, 0xDE, 0x01, 0x00] (.sbbEvIw (.reg .si) 0x0001) = true ∧
    reads [0x83, 0x5B, 0x00, 0xFF] (.sbbEvSIb (.bpDiDisp 0x00) 0xFF) = true := by
  decide

theorem test_decode_and :
    reads [0x20, 0xF7] (.andEbGb (.reg .di) .si) = true ∧
    reads [0x21, 0xD8] (.andEvGv (.reg .ax) .bx) = true ∧
    reads [0x22, 0x0F] (.andGbEb .cx .bx) = true ∧
    reads [0x23, 0x87, 0xFF, 0xFF] (.andGvEv .ax (.bxDisp 0xFFFF)) = true ∧
    reads [0x80, 0xE0, 0x0F] (.andEbIb (.reg .ax) 0x0F) = true ∧
    reads [0x81, 0xE3, 0xF0, 0x0F] (.andEvIw (.reg .bx) 0x0FF0) = true ∧
    reads [0x83, 0x27, 0x80] (.andEvSIb .bx 0x80) = true := by
  decide

theorem test_decode_sub :
    reads [0x28, 0x1E, 0x00, 0x80] (.subEbGb (.direct 0x8000) .bx) = true ∧
    reads [0x29, 0x07] (.subEvGv .bx .ax) = true ∧
    reads [0x2A, 0x07] (.subGbEb .ax .bx) = true ∧
    reads [0x2B, 0xD0] (.subGvEv .dx (.reg .ax)) = true ∧
    reads [0x80, 0xAD, 0x00, 0x00, 0x01] (.subEbIb (.diDisp 0x0000) 0x01) = true ∧
    reads [0x81, 0x2F, 0x05, 0x00] (.subEvIw .bx 0x0005) = true ∧
    reads [0x83, 0xE8, 0x01] (.subEvSIb (.reg .ax) 0x01) = true := by
  decide

theorem test_decode_xor :
    reads [0x30, 0x01] (.xorEbGb .bxDi .ax) = true ∧
    reads [0x31, 0xC0] (.xorEvGv (.reg .ax) .ax) = true ∧
    reads [0x32, 0xC4] (.xorGbEb .ax (.reg .sp)) = true ∧
    reads [0x33, 0x3E, 0x00, 0x10] (.xorGvEv .di (.direct 0x1000)) = true ∧
    reads [0x80, 0x73, 0x7F, 0xFF] (.xorEbIb (.bpDiDisp 0x7F) 0xFF) = true ∧
    reads [0x81, 0xF5, 0xFF, 0xFF] (.xorEvIw (.reg .bp) 0xFFFF) = true ∧
    reads [0x83, 0xF7, 0x01] (.xorEvSIb (.reg .di) 0x01) = true := by
  decide

theorem test_decode_cmp :
    reads [0x38, 0xC8] (.cmpEbGb (.reg .ax) .cx) = true ∧
    reads [0x39, 0xD8] (.cmpEvGv (.reg .ax) .bx) = true ∧
    reads [0x3A, 0x07] (.cmpGbEb .ax .bx) = true ∧
    reads [0x3B, 0x9D, 0x04, 0x00] (.cmpGvEv .bx (.diDisp 0x0004)) = true ∧
    reads [0x80, 0x3E, 0x00, 0x80, 0x20] (.cmpEbIb (.direct 0x8000) 0x20) = true ∧
    reads [0x81, 0xFC, 0x00, 0x01] (.cmpEvIw (.reg .sp) 0x0100) = true ∧
    reads [0x83, 0x39, 0x00] (.cmpEvSIb .bxDi 0x00) = true := by
  decide

theorem test_decode_incdec :
    reads [0x44] (.incR16 .sp) = true ∧
    reads [0x4F] (.decR16 .di) = true ∧
    reads [0xFE, 0xC0] (.incEb (.reg .ax)) = true ∧
    reads [0xFE, 0x0E, 0x00, 0x90] (.decEb (.direct 0x9000)) = true := by
  decide

theorem test_decode_stack :
    reads [0x53] (.pushR16 .bx) = true ∧
    reads [0x59] (.popR16 .cx) = true := by
  decide

theorem test_decode_mov :
    reads [0x88, 0x01] (.movEbGb .bxDi .ax) = true ∧
    reads [0x89, 0x95, 0x34, 0x12] (.movEvGv (.diDisp 0x1234) .dx) = true ∧
    reads [0x8A, 0x5B, 0xFF] (.movGbEb .bx (.bpDiDisp 0xFF)) = true ∧
    reads [0x8B, 0x0E, 0x00, 0x20] (.movGvEv .cx (.direct 0x2000)) = true ∧
    reads [0xB4, 0x05] (.movR8Ib .sp 0x05) = true ∧
    reads [0xBC, 0x00, 0xF0] (.movR16Iw .sp 0xF000) = true ∧
    reads [0xC6, 0x06, 0x00, 0x80, 0x41] (.movEbIb (.direct 0x8000) 0x41) = true ∧
    reads [0xC7, 0x85, 0x00, 0x00, 0xFF, 0xFF] (.movEvIw (.diDisp 0x0000) 0xFFFF) = true := by
  decide

theorem test_decode_xchg :
    reads [0x86, 0x07] (.xchgEbGb .bx .ax) = true ∧
    reads [0x91] .xchgAxCx = true ∧
    reads [0x92] .xchgAxDx = true ∧
    reads [0x93] .xchgAxBx = true ∧
    reads [0x94] .xchgAxSp = true ∧
    reads [0x95] .xchgAxBp = true ∧
    reads [0x96] .xchgAxSi = true ∧
    reads [0x97] .xchgAxDi = true := by
  decide

theorem test_decode_control :
    reads [0x72, 0x02] (.jbRel8 0x02) = true ∧
    reads [0x74, 0x01] (.jzRel8 0x01) = true ∧
    reads [0x75, 0xFB] (.jnzRel8 0xFB) = true ∧
    reads [0x76, 0x10] (.jbeRel8 0x10) = true ∧
    reads [0x77, 0x80] (.jaRel8 0x80) = true ∧
    reads [0x79, 0x01] (.jnsRel8 0x01) = true ∧
    reads [0xEB, 0xFE] (.jmpRel8 0xFE) = true ∧
    reads [0xE8, 0xFD, 0xFF] (.callRel16 0xFFFD) = true ∧
    reads [0xC3] .ret = true := by
  decide

theorem test_decode_misc :
    reads [0x90] .nop = true ∧
    reads [0xF9] .stc = true ∧
    reads [0xF4] .hlt = true := by
  decide

/-- The vectors RM11, RM12 and RM14: an undefined pair is the instruction's own operand; no displacement and no immediate is
taken after it. -/
theorem test_decode_undefined_modes :
    decode [0x00, 0x00] = .ok (.addEbGb (.undefined 0 0) .ax, []) ∧
    decode [0x8B, 0x47, 0x05] = .ok (.movGvEv .ax (.undefined 1 7), [0x05]) ∧
    decode [0x89, 0xB6, 0x00, 0x10] = .ok (.movEvGv (.undefined 2 6) .si, [0x00, 0x10]) ∧
    decode [0x81, 0x04, 0x01, 0x00] = .ok (.addEvIw (.undefined 0 4) 0, [0x01, 0x00]) := by
  decide

/-- The vectors ID12, ID13, ID15, MX10 and MX13, and C6 with an undefined pair (60_exceptions.md R217). -/
theorem test_decode_bad_selectors :
    rejects [0xFE, 0xD0] (.badSubOpcode 0xFE 2) = true ∧
    rejects [0xFE, 0xBF, 0x00, 0x10] (.badSubOpcode 0xFE 7) = true ∧
    rejects [0xFE, 0x10] (.badAddressingMode 0x10) = true ∧
    rejects [0xC6, 0x0E, 0x00, 0x80, 0x41] (.badSubOpcode 0xC6 1) = true ∧
    rejects [0xC7, 0xF8, 0x00, 0x00] (.badSubOpcode 0xC7 7) = true ∧
    rejects [0xC6, 0x08] (.badAddressingMode 0x08) = true := by
  decide

/-- 30_encoding.md R69: 110 of the 256 opcode bytes are supported. -/
theorem test_opcode_map_covers_110_bytes :
    ((List.range 256).filter fun n => (formOf (BitVec.ofNat 8 n)).isSome).length = 110 := by
  decide +kernel

/-- The displacement and the immediate of AF17 are written low byte first (30_encoding.md R62). -/
theorem test_encode_little_endian :
    encode (.addEvIw (.bxDisp 0x1000) 0x0001) = [0x81, 0x87, 0x00, 0x10, 0x01, 0x00] := by
  decide

/-- The rows ADD_Eb_Gb (0x00), OR_Eb_Ib (0x8008), MOV_r16_Iw (0xB8) and HLT (0xF4) of spec/opcode_table.json. -/
theorem test_table_words :
    decodeTableWord 8 0x00 = some (.addEbGb (.undefined 0 0) .ax) ∧
    decodeTableWord 16 0x8008 = some (.orEbIb (.undefined 0 0) 0) ∧
    decodeTableWord 16 0xFEC8 = some (.decEb (.reg .ax)) ∧
    decodeTableWord 8 0xB8 = some (.movR16Iw .ax 0) ∧
    decodeTableWord 8 0xF4 = some .hlt ∧
    decodeTableWord 8 0xF1 = none := by
  decide

/-- The instruction placed by `withFetchWord` is the one the next step runs, also from a terminal status. -/
theorem test_withFetchWord_runs :
    stops (State.reset.withFetchWord 8 0xF4) .halted (some 0x0001) = true ∧
    stops (State.withFetchWord { State.reset with status := .halted } 8 0xF4) .halted (some 0x0001) = true ∧
    goes (State.reset.withFetchWord 16 0xFEC0) (fun t => ((t.setIp 0x0002).setReg8 .ax 0x01).setFlags ⟨false, false, false⟩)
      = true := by
  decide

/-! ### The resolver: one vector for each memory mode (30_encoding.md R64, R65) -/

/-- RM1, RM3, RM8 and RM10. -/
theorem test_resolve_without_displacement :
    resolve .bxDi ((State.reset.setReg16 .bx 0x1000).setReg16 .di 0x0234) = some (.mem 0x1234) ∧
    resolve .bx (State.reset.setReg16 .bx 0x3000) = some (.mem 0x3000) ∧
    resolve (.direct 0xFFFF) State.reset = some (.mem 0xFFFF) ∧
    resolve (.reg .bx) State.reset = some (.reg 6) := by
  decide

/-- RM4 (d8 = -1), RM5 (d8 = 0x7F), RM6 and RM7 (the address wraps). -/
theorem test_resolve_with_displacement :
    resolve (.bpDiDisp 0xFF) ((State.reset.setReg16 .bp 0x0100).setReg16 .di 0x0010) = some (.mem 0x010F) ∧
    resolve (.bpDiDisp 0x7F) ((State.reset.setReg16 .bp 0x0100).setReg16 .di 0x0010) = some (.mem 0x018F) ∧
    resolve (.diDisp 0x0100) (State.reset.setReg16 .di 0x0200) = some (.mem 0x0300) ∧
    resolve (.bxDisp 0xFFFF) (State.reset.setReg16 .bx 0x0001) = some (.mem 0x0000) := by
  decide

/-- A word access through a register reference at offset 14 and through memory at 0xFFFF (20_memory.md R42, R43, R46). -/
theorem test_word_access_at_the_top :
    ((State.reset.writeWord 0xFFFF 0x1234).readByte 0xFFFF = 0x34 ∧ (State.reset.writeWord 0xFFFF 0x1234).readByte 0x0000 = 0x12) ∧
    ((State.reset.writeRef16 (.reg 14) 0xABCD).reg16 .di = 0xABCD) ∧
    ((State.reset.writeByte 0x0010 0x00).mem = []) := by
  decide

/-! ### The ALU function: the vectors V1 to V27, by operation -/

/-- V1, V2, V3, V4, V5. -/
theorem test_alu_add :
    alu .add (0xFFFF : Word) 0x0001 false = ⟨0x0000, ⟨true, true, false⟩⟩ ∧
    alu .add (0x7FFF : Word) 0x0001 false = ⟨0x8000, ⟨false, false, true⟩⟩ ∧
    alu .add (0x1234 : Word) 0x0000 true = ⟨0x1234, ⟨false, false, false⟩⟩ ∧
    alu .add (0xFF : Byte) 0x01 false = ⟨0x00, ⟨true, true, false⟩⟩ ∧
    alu .add (0x7F : Byte) 0x01 false = ⟨0x80, ⟨false, false, true⟩⟩ := by
  decide

/-- V6, V7, V8, V9, V10. -/
theorem test_alu_adc :
    alu .adc (0xFFFF : Word) 0x0000 true = ⟨0x0000, ⟨true, true, false⟩⟩ ∧
    alu .adc (0x1234 : Word) 0xFFFF true = ⟨0x1234, ⟨false, false, false⟩⟩ ∧
    alu .adc (0x1234 : Word) 0xFFFF false = ⟨0x1233, ⟨true, false, false⟩⟩ ∧
    alu .adc (0x12 : Byte) 0xFF true = ⟨0x12, ⟨false, false, false⟩⟩ ∧
    alu .adc (0xFF : Byte) 0xFF true = ⟨0xFF, ⟨false, false, true⟩⟩ := by
  decide

/-- V11, V12, V13, V14. -/
theorem test_alu_sbb :
    alu .sbb (0x0003 : Word) 0x0003 true = ⟨0xFFFF, ⟨true, false, true⟩⟩ ∧
    alu .sbb (0x1234 : Word) 0xFFFF true = ⟨0x1234, ⟨false, false, false⟩⟩ ∧
    alu .sbb (0x0000 : Word) 0x0000 true = ⟨0xFFFF, ⟨true, false, true⟩⟩ ∧
    alu .sbb (0x12 : Byte) 0xFF true = ⟨0x12, ⟨false, false, false⟩⟩ := by
  decide

/-- V15, V16, V17, V18. -/
theorem test_alu_sub :
    alu .sub (0x0003 : Word) 0x0005 false = ⟨0xFFFE, ⟨true, false, true⟩⟩ ∧
    alu .sub (0x8000 : Word) 0x0001 false = ⟨0x7FFF, ⟨false, false, false⟩⟩ ∧
    alu .sub (0x00 : Byte) 0x01 false = ⟨0xFF, ⟨true, false, true⟩⟩ ∧
    alu .sub (0x80 : Byte) 0x01 false = ⟨0x7F, ⟨false, false, false⟩⟩ := by
  decide

/-- V19, V20, V21. -/
theorem test_alu_cmp :
    alu .cmp (0x0005 : Word) 0x0005 true = ⟨0x0005, ⟨false, true, false⟩⟩ ∧
    alu .cmp (0x0003 : Word) 0x0005 false = ⟨0x0003, ⟨true, false, true⟩⟩ ∧
    alu .cmp (0x20 : Byte) 0x21 false = ⟨0x20, ⟨true, false, true⟩⟩ := by
  decide

/-- V22, V23. -/
theorem test_alu_and :
    alu .and (0xF0F0 : Word) 0x0FF0 true = ⟨0x00F0, ⟨false, false, false⟩⟩ ∧
    alu .and (0x80 : Byte) 0xFF true = ⟨0x80, ⟨false, false, true⟩⟩ := by
  decide

/-- V24, V25. -/
theorem test_alu_or :
    alu .or (0x0000 : Word) 0x0000 true = ⟨0x0000, ⟨false, true, false⟩⟩ ∧
    alu .or (0x40 : Byte) 0x80 false = ⟨0xC0, ⟨false, false, true⟩⟩ := by
  decide

/-- V26, V27. -/
theorem test_alu_xor :
    alu .xor (0xFFFF : Word) 0xFFFF true = ⟨0x0000, ⟨false, true, false⟩⟩ ∧
    alu .xor (0x0F : Byte) 0xF0 false = ⟨0xFF, ⟨false, false, true⟩⟩ := by
  decide

/-! ### Steps: the vectors of 95_test_vectors.md, one step each; the whole next state is compared -/

/-- AF1. -/
theorem test_add_bl_al :
    goes (((start 0x0000 [0x00, 0xC3]).setReg16 .ax 0x00FF).setReg16 .bx 0x1201)
    (fun t => ((t.setIp 0x0002).setReg16 .bx 0x1200).setFlags ⟨true, true, false⟩) = true := by
  decide

/-- AF2. -/
theorem test_add_ax_bx :
    goes (((start 0x0000 [0x01, 0xD8]).setReg16 .ax 0xFFFF).setReg16 .bx 0x0001)
    (fun t => ((t.setIp 0x0002).setReg16 .ax 0x0000).setFlags ⟨true, true, false⟩) = true := by
  decide

/-- AF3. -/
theorem test_add_al_mem :
    goes ((((start 0x0000 [0x02, 0x07]).setReg16 .ax 0x0010).setReg16 .bx 0x0500).writeByte 0x0500 0xF0)
    (fun t => ((t.setIp 0x0002).setReg16 .ax 0x0000).setFlags ⟨true, true, false⟩) = true := by
  decide

/-- AF4. -/
theorem test_add_ax_ax :
    goes ((start 0x0000 [0x03, 0xC0]).setReg16 .ax 0x8000)
    (fun t => ((t.setIp 0x0002).setReg16 .ax 0x0000).setFlags ⟨true, true, false⟩) = true := by
  decide

/-- AF5. -/
theorem test_adc_carry_quirk :
    goes ((((start 0x0000 [0x11, 0xD8]).setReg16 .ax 0x1234).setReg16 .bx 0xFFFF).setFlags ⟨true, false, false⟩)
    (fun t => (t.setIp 0x0002).setFlags ⟨false, false, false⟩) = true := by
  decide

/-- AF6. -/
theorem test_sbb_carry_quirk :
    goes ((((start 0x0000 [0x19, 0xD8]).setReg16 .ax 0x1234).setReg16 .bx 0xFFFF).setFlags ⟨true, false, false⟩)
    (fun t => (t.setIp 0x0002).setFlags ⟨false, false, false⟩) = true := by
  decide

/-- AF7. -/
theorem test_sbb_ax_ax :
    goes (((start 0x0000 [0x1B, 0xC0]).setReg16 .ax 0x0005).setFlags ⟨true, false, false⟩)
    (fun t => ((t.setIp 0x0002).setReg16 .ax 0xFFFF).setFlags ⟨true, false, true⟩) = true := by
  decide

/-- AF8. -/
theorem test_sub_mem_ax :
    goes (((((start 0x0000 [0x29, 0x07]).setReg16 .ax 0x0001).setReg16 .bx 0x0200).writeByte 0x0200 0x10).writeByte 0x0201 0x00)
    (fun t => ((t.setIp 0x0002).writeByte 0x0200 0x0F).setFlags ⟨false, false, false⟩) = true := by
  decide

/-- AF9. -/
theorem test_sub_al_mem :
    goes ((((start 0x0000 [0x2A, 0x07]).setReg16 .ax 0x0001).setReg16 .bx 0x0300).writeByte 0x0300 0x02)
    (fun t => ((t.setIp 0x0002).setReg16 .ax 0x00FF).setFlags ⟨true, false, true⟩) = true := by
  decide

/-- AF10. -/
theorem test_xor_ax_ax :
    goes (((start 0x0000 [0x31, 0xC0]).setReg16 .ax 0x5A5A).setFlags ⟨true, false, false⟩)
    (fun t => ((t.setIp 0x0002).setReg16 .ax 0x0000).setFlags ⟨false, true, false⟩) = true := by
  decide

/-- AF11. -/
theorem test_cmp_ax_bx :
    goes (((start 0x0000 [0x39, 0xD8]).setReg16 .ax 0x0003).setReg16 .bx 0x0005)
    (fun t => (t.setIp 0x0002).setFlags ⟨true, false, true⟩) = true := by
  decide

/-- AF12. -/
theorem test_cmp_al_mem :
    goes ((((start 0x0000 [0x3A, 0x07]).setReg16 .ax 0x0080).setReg16 .bx 0x0400).writeByte 0x0400 0x80)
    (fun t => (t.setIp 0x0002).setFlags ⟨false, true, false⟩) = true := by
  decide

/-- AF13. -/
theorem test_and_ax_bx :
    goes ((((start 0x0000 [0x21, 0xD8]).setReg16 .ax 0xF0F0).setReg16 .bx 0x0FF0).setFlags ⟨true, false, false⟩)
    (fun t => ((t.setIp 0x0002).setReg16 .ax 0x00F0).setFlags ⟨false, false, false⟩) = true := by
  decide

/-- AF14. -/
theorem test_or_al_bl :
    goes (((start 0x0000 [0x0A, 0xC3]).setReg16 .ax 0x0000).setReg16 .bx 0x0080)
    (fun t => ((t.setIp 0x0002).setReg16 .ax 0x0080).setFlags ⟨false, false, true⟩) = true := by
  decide

/-- AF15. -/
theorem test_cmp_mem_imm8 :
    goes ((start 0x0000 [0x80, 0x3E, 0x00, 0x80, 0x20]).writeByte 0x8000 0x20)
    (fun t => (t.setIp 0x0005).setFlags ⟨false, true, false⟩) = true := by
  decide

/-- AF16. -/
theorem test_add_spl_imm8 :
    goes ((start 0x0000 [0x80, 0xC4, 0x01]).setReg16 .sp 0x01FF)
    (fun t => ((t.setIp 0x0003).setReg16 .sp 0x0100).setFlags ⟨true, true, false⟩) = true := by
  decide

/-- AF17. -/
theorem test_add_mem_imm16 :
    goes ((((start 0x0000 [0x81, 0x87, 0x00, 0x10, 0x01, 0x00]).setReg16 .bx 0x0000).writeByte 0x1000 0xFF).writeByte 0x1001 0x00)
    (fun t => (((t.setIp 0x0006).writeByte 0x1000 0x00).writeByte 0x1001 0x01).setFlags ⟨false, false, false⟩) = true := by
  decide

/-- AF18. -/
theorem test_cmp_sp_imm16 :
    goes ((start 0x0000 [0x81, 0xFC, 0x00, 0x01]).setReg16 .sp 0x00FE)
    (fun t => (t.setIp 0x0004).setFlags ⟨true, false, true⟩) = true := by
  decide

/-- AF19. -/
theorem test_add_ax_signed_imm :
    goes ((start 0x0000 [0x83, 0xC0, 0xFF]).setReg16 .ax 0x0000)
    (fun t => ((t.setIp 0x0003).setReg16 .ax 0xFFFF).setFlags ⟨false, false, true⟩) = true := by
  decide

/-- AF20. -/
theorem test_add_ax_signed_imm_carry :
    goes ((start 0x0000 [0x83, 0xC0, 0xFF]).setReg16 .ax 0x0005)
    (fun t => ((t.setIp 0x0003).setReg16 .ax 0x0004).setFlags ⟨true, false, false⟩) = true := by
  decide

/-- AF21. -/
theorem test_sub_ax_signed_imm :
    goes ((start 0x0000 [0x83, 0xE8, 0x01]).setReg16 .ax 0x0000)
    (fun t => ((t.setIp 0x0003).setReg16 .ax 0xFFFF).setFlags ⟨true, false, true⟩) = true := by
  decide

/-- AF22. -/
theorem test_adc_ax_signed_imm :
    goes (((start 0x0000 [0x83, 0xD0, 0x7F]).setReg16 .ax 0x0080).setFlags ⟨true, false, false⟩)
    (fun t => ((t.setIp 0x0003).setReg16 .ax 0x0100).setFlags ⟨false, false, false⟩) = true := by
  decide

/-- AF23. -/
theorem test_sbb_mem_signed_imm_quirk :
    goes ((((((start 0x0000 [0x83, 0x5B, 0x00, 0xFF]).setReg16 .bp 0x0200).setReg16 .di 0x0000).writeByte 0x0200 0x00).writeByte 0x0201 0x00).setFlags ⟨true, false, false⟩)
    (fun t => (t.setIp 0x0004).setFlags ⟨false, true, false⟩) = true := by
  decide

/-- MX1. -/
theorem test_mov_mem_al :
    goes ((((start 0x0000 [0x88, 0x01]).setReg16 .ax 0x0041).setReg16 .bx 0x8000).setReg16 .di 0x0002)
    (fun t => (t.setIp 0x0002).writeByte 0x8002 0x41) = true := by
  decide

/-- MX2. -/
theorem test_mov_mem_dx :
    goes (((start 0x0000 [0x89, 0x95, 0x34, 0x12]).setReg16 .di 0x0000).setReg16 .dx 0xBEEF)
    (fun t => ((t.setIp 0x0004).writeByte 0x1234 0xEF).writeByte 0x1235 0xBE) = true := by
  decide

/-- MX18. -/
theorem test_mov_leaves_flags :
    goes ((((start 0x0000 [0x89, 0xC3]).setReg16 .ax 0x0000).setReg16 .bx 0x0007).setFlags ⟨true, true, true⟩)
    (fun t => ((t.setIp 0x0002).setReg16 .bx 0x0000).setFlags ⟨true, true, true⟩) = true := by
  decide

/-- MX3. -/
theorem test_mov_al_mem :
    goes (((((start 0x0000 [0x8A, 0x43, 0x05]).setReg16 .ax 0x1234).setReg16 .bp 0x0100).setReg16 .di 0x0010).writeByte 0x0115 0x7A)
    (fun t => (t.setIp 0x0003).setReg16 .ax 0x127A) = true := by
  decide

/-- RM9. -/
theorem test_mov_al_spl :
    goes (((start 0x0000 [0x8A, 0xC4]).setReg16 .ax 0x1111).setReg16 .sp 0x0180)
    (fun t => ((t.setIp 0x0002).setReg16 .ax 0x1180).setFlags ⟨false, false, false⟩) = true := by
  decide

/-- MX4. -/
theorem test_mov_ax_mem :
    goes ((((start 0x0000 [0x8B, 0x07]).setReg16 .bx 0x0200).writeByte 0x0200 0x34).writeByte 0x0201 0x12)
    (fun t => (t.setIp 0x0002).setReg16 .ax 0x1234) = true := by
  decide

/-- RM10. -/
theorem test_mov_ax_mem_at_ffff :
    goes (((start 0x0100 [0x8B, 0x06, 0xFF, 0xFF]).writeByte 0xFFFF 0x34).writeByte 0x0000 0x12)
    (fun t => ((t.setIp 0x0104).setReg16 .ax 0x1234).setFlags ⟨false, false, false⟩) = true := by
  decide

/-- MX5. -/
theorem test_mov_al_imm :
    goes ((start 0x0000 [0xB0, 0x7F]).setReg16 .ax 0xAB00)
    (fun t => (t.setIp 0x0002).setReg16 .ax 0xAB7F) = true := by
  decide

/-- MX6. -/
theorem test_mov_spl_imm :
    goes ((start 0x0000 [0xB4, 0x05]).setReg16 .sp 0x0100)
    (fun t => (t.setIp 0x0002).setReg16 .sp 0x0105) = true := by
  decide

/-- MX7. -/
theorem test_mov_ax_imm :
    goes (start 0x0000 [0xB8, 0x05, 0x00])
    (fun t => (t.setIp 0x0003).setReg16 .ax 0x0005) = true := by
  decide

/-- RM16. -/
theorem test_mov_ax_imm_over_the_top :
    goes (start 0xFFFE [0xB8, 0x34, 0x12])
    (fun t => ((t.setIp 0x0001).setReg16 .ax 0x1234).setFlags ⟨false, false, false⟩) = true := by
  decide

/-- MX9. -/
theorem test_mov_mem_imm8 :
    goes (start 0x0000 [0xC6, 0x06, 0x00, 0x80, 0x41])
    (fun t => (t.setIp 0x0005).writeByte 0x8000 0x41) = true := by
  decide

/-- RM15. -/
theorem test_mov_mem_imm8_over_itself :
    goes (start 0x0000 [0xC6, 0x06, 0x00, 0x00, 0x41])
    (fun t => ((t.setIp 0x0005).writeByte 0x0000 0x41).setFlags ⟨false, false, false⟩) = true := by
  decide

/-- MX11. -/
theorem test_mov_mem_imm16 :
    goes ((start 0x0000 [0xC7, 0x85, 0x00, 0x00, 0xFF, 0xFF]).setReg16 .di 0x0200)
    (fun t => ((t.setIp 0x0006).writeByte 0x0200 0xFF).writeByte 0x0201 0xFF) = true := by
  decide

/-- MX12. -/
theorem test_mov_cx_imm16 :
    goes ((start 0x0000 [0xC7, 0xC1, 0x34, 0x12]).setReg16 .cx 0x0000)
    (fun t => (t.setIp 0x0004).setReg16 .cx 0x1234) = true := by
  decide

/-- MX14. -/
theorem test_xchg_mem_al :
    goes ((((start 0x0000 [0x86, 0x07]).setReg16 .ax 0xAA22).setReg16 .bx 0x0300).writeByte 0x0300 0x11)
    (fun t => ((t.setIp 0x0002).setReg16 .ax 0xAA11).writeByte 0x0300 0x22) = true := by
  decide

/-- MX15. -/
theorem test_xchg_al_al :
    goes ((start 0x0000 [0x86, 0xC0]).setReg16 .ax 0x1234)
    (fun t => t.setIp 0x0002) = true := by
  decide

/-- MX16. -/
theorem test_xchg_ax_cx :
    goes (((start 0x0000 [0x91]).setReg16 .ax 0x1234).setReg16 .cx 0xABCD)
    (fun t => ((t.setIp 0x0001).setReg16 .ax 0xABCD).setReg16 .cx 0x1234) = true := by
  decide

/-- MX17. -/
theorem test_xchg_ax_sp :
    goes (((start 0x0000 [0x94]).setReg16 .ax 0x0200).setReg16 .sp 0x0100)
    (fun t => ((t.setIp 0x0001).setReg16 .ax 0x0100).setReg16 .sp 0x0200) = true := by
  decide

/-- ID1. -/
theorem test_inc_ax_wraps :
    goes ((start 0x0000 [0x40]).setReg16 .ax 0xFFFF)
    (fun t => ((t.setIp 0x0001).setReg16 .ax 0x0000).setFlags ⟨true, true, false⟩) = true := by
  decide

/-- ID4. -/
theorem test_inc_cx_keeps_carry :
    goes (((startWith keepsCarry 0x0000 [0x41]).setReg16 .cx 0x7FFF).setFlags ⟨true, false, false⟩)
    (fun t => ((t.setIp 0x0001).setReg16 .cx 0x8000).setFlags ⟨true, false, true⟩) = true := by
  decide

/-- ID6. -/
theorem test_dec_ax_wraps :
    goes ((start 0x0000 [0x48]).setReg16 .ax 0x0000)
    (fun t => ((t.setIp 0x0001).setReg16 .ax 0xFFFF).setFlags ⟨true, false, true⟩) = true := by
  decide

/-- ID7. -/
theorem test_dec_cx_to_zero :
    goes ((start 0x0000 [0x49]).setReg16 .cx 0x0001)
    (fun t => ((t.setIp 0x0001).setReg16 .cx 0x0000).setFlags ⟨false, true, false⟩) = true := by
  decide

/-- ID8. -/
theorem test_inc_al_wraps :
    goes ((start 0x0000 [0xFE, 0xC0]).setReg16 .ax 0x12FF)
    (fun t => ((t.setIp 0x0002).setReg16 .ax 0x1200).setFlags ⟨true, true, false⟩) = true := by
  decide

/-- ID9. -/
theorem test_inc_mem :
    goes (((start 0x0000 [0xFE, 0x07]).setReg16 .bx 0x8000).writeByte 0x8000 0x40)
    (fun t => ((t.setIp 0x0002).writeByte 0x8000 0x41).setFlags ⟨false, false, false⟩) = true := by
  decide

/-- ID10. -/
theorem test_dec_al_wraps :
    goes ((start 0x0000 [0xFE, 0xC8]).setReg16 .ax 0x0100)
    (fun t => ((t.setIp 0x0002).setReg16 .ax 0x01FF).setFlags ⟨true, false, true⟩) = true := by
  decide

/-- ID11. -/
theorem test_dec_mem :
    goes ((start 0x0000 [0xFE, 0x0E, 0x00, 0x90]).writeByte 0x9000 0x80)
    (fun t => ((t.setIp 0x0004).writeByte 0x9000 0x7F).setFlags ⟨false, false, false⟩) = true := by
  decide

/-- ST3. -/
theorem test_push_sp_old_value :
    goes ((start 0x0000 [0x54]).setReg16 .sp 0x0100)
    (fun t => (((t.setIp 0x0001).setReg16 .sp 0x00FE).writeByte 0x0100 0x01).writeByte 0x00FF 0x00) = true := by
  decide

/-- ST8. -/
theorem test_push_at_lowest_sp :
    goes (((start 0x0200 [0x50]).setReg16 .sp 0x0002).setReg16 .ax 0x1234)
    (fun t => (((t.setIp 0x0201).setReg16 .sp 0x0000).writeByte 0x0002 0x12).writeByte 0x0001 0x34) = true := by
  decide

/-- ST4. -/
theorem test_pop_sp_popped_value :
    goes ((((start 0x0000 [0x5C]).setReg16 .sp 0x00FE).writeByte 0x00FF 0x00).writeByte 0x0100 0x02)
    (fun t => (t.setIp 0x0001).setReg16 .sp 0x0200) = true := by
  decide

/-- ST10. -/
theorem test_pop_wraps :
    goes ((((startWith wraps 0x0200 [0x58]).setReg16 .sp 0xFFFE).writeByte 0xFFFF 0x11).writeByte 0x0000 0x22)
    (fun t => ((t.setIp 0x0201).setReg16 .ax 0x2211).setReg16 .sp 0x0000) = true := by
  decide

/-- CT2. -/
theorem test_jmp_to_itself :
    goes (start 0x0040 [0xEB, 0xFE])
    (fun t => t.setIp 0x0040) = true := by
  decide

/-- CT3. -/
theorem test_jmp_wraps :
    goes (start 0xFFF0 [0xEB, 0x20])
    (fun t => t.setIp 0x0012) = true := by
  decide

/-- CT4. -/
theorem test_jb_not_taken :
    goes (start 0x0013 [0x72, 0x02])
    (fun t => t.setIp 0x0015) = true := by
  decide

/-- CT5. -/
theorem test_jb_taken :
    goes ((start 0x0013 [0x72, 0x02]).setFlags ⟨true, false, false⟩)
    (fun t => t.setIp 0x0017) = true := by
  decide

/-- CT6. -/
theorem test_jz_taken :
    goes ((start 0x001C [0x74, 0x01]).setFlags ⟨false, true, false⟩)
    (fun t => t.setIp 0x001F) = true := by
  decide

/-- CT7. -/
theorem test_jz_not_taken :
    goes (start 0x001C [0x74, 0x01])
    (fun t => t.setIp 0x001E) = true := by
  decide

/-- CT8. -/
theorem test_jnz_taken :
    goes (start 0x0009 [0x75, 0xFB])
    (fun t => t.setIp 0x0006) = true := by
  decide

/-- CT9. -/
theorem test_jnz_not_taken :
    goes ((start 0x0009 [0x75, 0xFB]).setFlags ⟨false, true, false⟩)
    (fun t => t.setIp 0x000B) = true := by
  decide

/-- CT10. -/
theorem test_jbe_taken :
    goes ((start 0x0100 [0x76, 0x10]).setFlags ⟨false, true, false⟩)
    (fun t => t.setIp 0x0112) = true := by
  decide

/-- CT12. -/
theorem test_jbe_not_taken :
    goes (start 0x0100 [0x76, 0x10])
    (fun t => t.setIp 0x0102) = true := by
  decide

/-- CT13. -/
theorem test_ja_taken :
    goes (start 0x0200 [0x77, 0x80])
    (fun t => t.setIp 0x0182) = true := by
  decide

/-- CT15. -/
theorem test_ja_not_taken :
    goes ((start 0x0200 [0x77, 0x80]).setFlags ⟨false, true, false⟩)
    (fun t => t.setIp 0x0202) = true := by
  decide

/-- CT16. -/
theorem test_jns_taken :
    goes (start 0x002E [0x79, 0x01])
    (fun t => t.setIp 0x0031) = true := by
  decide

/-- CT17. -/
theorem test_jns_not_taken :
    goes ((start 0x002E [0x79, 0x01]).setFlags ⟨false, false, true⟩)
    (fun t => t.setIp 0x0030) = true := by
  decide

/-- CT18. -/
theorem test_call :
    goes ((start 0x0003 [0xE8, 0x04, 0x00]).setReg16 .sp 0x0100)
    (fun t => (((t.setIp 0x000A).setReg16 .sp 0x00FE).writeByte 0x00FF 0x06).writeByte 0x0100 0x00) = true := by
  decide

/-- CT20. -/
theorem test_call_target_wraps :
    goes ((start 0x9000 [0xE8, 0x00, 0x80]).setReg16 .sp 0x0100)
    (fun t => (((t.setIp 0x1003).setReg16 .sp 0x00FE).writeByte 0x00FF 0x03).writeByte 0x0100 0x90) = true := by
  decide

/-- CT21. -/
theorem test_ret :
    goes ((((start 0x0012 [0xC3]).setReg16 .sp 0x00FE).writeByte 0x00FF 0x06).writeByte 0x0100 0x00)
    (fun t => (t.setIp 0x0006).setReg16 .sp 0x0100) = true := by
  decide

/-- MS1. -/
theorem test_nop :
    goes ((start 0x0000 [0x90]).setFlags ⟨true, false, false⟩)
    (fun t => (t.setIp 0x0001).setFlags ⟨true, false, false⟩) = true := by
  decide

/-- MS2. -/
theorem test_stc :
    goes ((start 0x0000 [0xF9]).setFlags ⟨false, true, false⟩)
    (fun t => (t.setIp 0x0001).setFlags ⟨true, true, false⟩) = true := by
  decide

/-- MS3. -/
theorem test_hlt :
    stops (start 0x0003 [0xF4]) .halted (some 0x0004) = true := by
  decide

/-- XCHG AX with DX, BX, BP, SI and DI (41_move_exchange.md R139): the two words change places. -/
theorem test_xchg_ax_others :
    goes (((start 0x0000 [0x92]).setReg16 .ax 0x1234).setReg16 .dx 0xABCD)
      (fun t => ((t.setIp 0x0001).setReg16 .ax 0xABCD).setReg16 .dx 0x1234) = true ∧
    goes (((start 0x0000 [0x93]).setReg16 .ax 0x1234).setReg16 .bx 0xABCD)
      (fun t => ((t.setIp 0x0001).setReg16 .ax 0xABCD).setReg16 .bx 0x1234) = true ∧
    goes (((start 0x0000 [0x95]).setReg16 .ax 0x1234).setReg16 .bp 0xABCD)
      (fun t => ((t.setIp 0x0001).setReg16 .ax 0xABCD).setReg16 .bp 0x1234) = true ∧
    goes (((start 0x0000 [0x96]).setReg16 .ax 0x1234).setReg16 .si 0xABCD)
      (fun t => ((t.setIp 0x0001).setReg16 .ax 0xABCD).setReg16 .si 0x1234) = true ∧
    goes (((start 0x0000 [0x97]).setReg16 .ax 0x1234).setReg16 .di 0xABCD)
      (fun t => ((t.setIp 0x0001).setReg16 .ax 0xABCD).setReg16 .di 0x1234) = true := by
  decide

/-! ### Terminal conditions -/

/-- AF24, AF25, MX19, ID14, CT24, CT25, MS4 to MS8: an unsupported opcode, with ip one further. -/
theorem test_unsupported_opcodes :
    stops (start 0x0000 [0x04, 0x01]) (.unsupported 0x04) (some 0x0001) = true ∧
    stops (start 0x0000 [0x82, 0xC0, 0x01]) (.unsupported 0x82) (some 0x0001) = true ∧
    stops (start 0x0000 [0x87, 0xC3]) (.unsupported 0x87) (some 0x0001) = true ∧
    stops (start 0x0000 [0xFF, 0xC0]) (.unsupported 0xFF) (some 0x0001) = true ∧
    stops (start 0x0000 [0xE9, 0x00, 0x00]) (.unsupported 0xE9) (some 0x0001) = true ∧
    stops (start 0x0000 [0x73, 0x02]) (.unsupported 0x73) (some 0x0001) = true ∧
    stops (start 0x0000 [0xF1]) (.unsupported 0xF1) (some 0x0001) = true ∧
    stops (start 0x0000 [0xF0, 0x90]) (.unsupported 0xF0) (some 0x0001) = true := by
  decide

/-- RM11 to RM14: an undefined (mode, rm) pair. -/
theorem test_undefined_modes_abort :
    stops (start 0x0000 [0x00, 0x00]) (.aborted (.badAddressingMode 0x00)) none = true ∧
    stops (start 0x0000 [0x8B, 0x47, 0x05]) (.aborted (.badAddressingMode 0x47)) none = true ∧
    stops (start 0x0000 [0x8B, 0x05]) (.aborted (.badAddressingMode 0x05)) none = true ∧
    stops (start 0x0000 [0x89, 0xB6, 0x00, 0x10]) (.aborted (.badAddressingMode 0xB6)) none = true := by
  decide

/-- ID12, ID13, ID15, MX10 and MX13: a sub-selector that selects nothing. -/
theorem test_bad_selectors_abort :
    stops (start 0x0000 [0xFE, 0xD0]) (.aborted (.badSubOpcode 0xFE 2)) none = true ∧
    stops (start 0x0000 [0xFE, 0xBF, 0x00, 0x10]) (.aborted (.badSubOpcode 0xFE 7)) none = true ∧
    stops (start 0x0000 [0xFE, 0x10]) (.aborted (.badAddressingMode 0x10)) none = true ∧
    stops (start 0x0000 [0xC6, 0x0E, 0x00, 0x80, 0x41]) (.aborted (.badSubOpcode 0xC6 1)) none = true ∧
    stops (start 0x0000 [0xC7, 0xF8, 0x00, 0x00]) (.aborted (.badSubOpcode 0xC7 7)) none = true := by
  decide

/-- ST6, ST9, ST12, ST13, CT22 and CT23: a stack fault before any byte is written. -/
theorem test_stack_faults :
    stops (((start 0x0200 [0x50]).setReg16 .sp 0x0001).setReg16 .ax 0x1234) .stackFault none = true ∧
    stops ((start 0x0200 [0x50]).setReg16 .sp 0x0000) .stackFault none = true ∧
    stops ((start 0x0000 [0x58]).setReg16 .sp 0xFFFE) .stackFault none = true ∧
    stops ((start 0x0000 [0x58]).setReg16 .sp 0xFFFF) .stackFault none = true ∧
    stops ((start 0x0000 [0xE8, 0x00, 0x00]).setReg16 .sp 0x0000) .stackFault none = true ∧
    stops ((start 0x0000 [0xC3]).setReg16 .sp 0xFFFF) .stackFault none = true := by
  decide

/-- MS9 and MS10: a step from a terminal status changes nothing. -/
theorem test_terminal_status_stays :
    goes { start 0x0004 [] with status := .halted } id = true ∧
    goes { start 0x0004 [] with status := .aborted (.badAddressingMode 0x00) } id = true := by
  decide

/-! ### The host's port -/

/-- W7: `B8 05 00 F4` halts after 2 steps with AX = 0x0005 and ip = 0x0004. -/
theorem test_run_halts_after_two_steps :
    (runCounted 10 (State.reset.load [0xB8, 0x05, 0x00, 0xF4])).2 = 2 ∧
    (runCounted 10 (State.reset.load [0xB8, 0x05, 0x00, 0xF4])).1.status = .halted ∧
    (runCounted 10 (State.reset.load [0xB8, 0x05, 0x00, 0xF4])).1.ip = 0x0004 ∧
    (runCounted 10 (State.reset.load [0xB8, 0x05, 0x00, 0xF4])).1.reg16 .ax = 0x0005 := by
  decide

/-- W9: `F1` is reported by the first step and no further step runs. -/
theorem test_run_unsupported_counts_one :
    (runCounted 10 (State.reset.load [0xF1])).2 = 1 ∧
    (runCounted 10 (State.reset.load [0xF1])).1.status = .unsupported 0xF1 := by
  decide

/-- The status output: the codes of 10_state.md R31, and the offending byte of an unsupported opcode. -/
theorem test_status_output :
    State.reset.statusOutput = (0, none) ∧
    State.statusOutput { State.reset with status := .unsupported 0xF1 } = (2, some 0xF1) ∧
    State.statusOutput { State.reset with status := .stackFault } = (4, none) := by
  decide

/-- The spellings the spec's tables use: AF15, AF17, MX14, and `75 FB` at 0x0009 of the program P1 (30_encoding.md R74). -/
theorem test_spellings :
    Instr.spell 0 (.cmpEbIb (.direct 0x8000) 0x20) = some "CMP byte [0x8000], 0x20" ∧
    Instr.spell 0 (.addEvIw (.bxDisp 0x1000) 0x0001) = some "ADD word [BX+0x1000], 0x0001" ∧
    Instr.spell 0 (.xchgEbGb .bx .ax) = some "XCHG [BX], AL" ∧
    Instr.spell 0x000B (.jnzRel8 0xFB) = some "JNZ 0x0006" ∧
    Instr.spell 0 (.incEb (.undefined 0 0)) = none := by
  decide

/-- The display window of the program P2, from the bytes it leaves: a byte is its character, a zero byte a space. -/
theorem test_display_cells :
    (State.reset.writeByte 0x8001 0x49).displayCell (fun b => Char.ofNat b.toNat) 0 1 = 'I' ∧
    (State.reset.writeByte 0x8001 0x49).displayCell (fun b => Char.ofNat b.toNat) 0 0 = ' ' ∧
    (State.reset.writeByte 0x87CF 0x48).displayCell (fun b => Char.ofNat b.toNat) 24 79 = 'H' := by
  decide

/-! ### Witnesses: values that meet the hypotheses of each statement that has some -/

/-- A halt, an unsupported opcode, an abort, a stack fault and a NOP at ip, each Running. -/
def atHalt : State := start 0x0000 [0xF4]
def atUnsupported : State := start 0x0000 [0xF1]
def atUndefinedMode : State := start 0x0000 [0x00, 0x00]
def atStackFault : State := (start 0x0200 [0x50]).setReg16 .sp 0x0001
def atNop : State := start 0x0000 [0x90]

/-- DecodeInvertsEncode: both kinds of operand, with an immediate. -/
theorem witness_DecodeInvertsEncode :
    (Instr.addEvIw (.bxDisp 0x1000) 0xFFFF).wf = true ∧ (Instr.addEvIw (.undefined 1 7) 0).wf = true := by
  decide

theorem witness_EncodeInvertsDecode : decode [0x72, 0x02, 0xF4] = .ok (.jbRel8 0x02, [0xF4]) := by decide

/-- InstructionLengthFormula, first clause: an opcode with a legal ModR/M byte, and one with none. -/
theorem witness_InstructionLengthFormula_decodes :
    (decode [0x8B, 0x07, 0xF4] = .ok (.movGvEv .ax .bx, [0xF4]) ∧ legalModRM 0x07) ∧
    (decode [0x90, 0x04] = .ok (.nop, [0x04]) ∧ hasModRM 0x90 = false) :=
  ⟨⟨by decide, by unfold legalModRM; decide⟩, by decide⟩

/-- InstructionLengthFormula, the other clauses, at the ends of their ranges. -/
theorem witness_InstructionLengthFormula_ranges :
    (0x00 : Byte) ∉ unsupportedOpcodes ∧ (0xFE : Byte) ∉ unsupportedOpcodes ∧
    between 0x40 0x40 0x5F = true ∧ between 0x5F 0x40 0x5F = true ∧ between 0x97 0x90 0x97 = true ∧
    between 0xB0 0xB0 0xB7 = true ∧ between 0xB7 0xB0 0xB7 = true ∧ between 0xB8 0xB8 0xBF = true ∧
    between 0xBF 0xB8 0xBF = true ∧ hasModRM 0x3B = true ∧ hasModRM 0xFE = true := by
  decide

theorem witness_UnsupportedOpcodeBytes : (0xF1 : Byte) ∈ unsupportedOpcodes ∧ (0x00 : Byte) ∉ unsupportedOpcodes := by
  decide

theorem witness_StepRunsTheDecodedInstruction :
    atNop.status = .running ∧ decode atNop.fetchWindow = .ok (.nop, [0, 0, 0, 0, 0]) := by
  decide

/-- StepRunsTheInstructionInMemory: the three bytes of RM16, over the top of memory. -/
theorem witness_StepRunsTheInstructionInMemory :
    (Instr.movR16Iw .ax 0x1234).wf = true ∧ (start 0xFFFE [0xB8, 0x34, 0x12]).status = .running ∧
    ∀ (n : Nat) (h : n < (encode (.movR16Iw .ax 0x1234)).length),
      (start 0xFFFE [0xB8, 0x34, 0x12]).readByte ((start 0xFFFE [0xB8, 0x34, 0x12]).ip + BitVec.ofNat 16 n)
        = (encode (.movR16Iw .ax 0x1234))[n] := by
  decide

theorem witness_UnsupportedOpcodeStopsTheStep :
    atUnsupported.status = .running ∧ atUnsupported.readByte atUnsupported.ip ∈ unsupportedOpcodes := by
  decide

/-- UndefinedAddressingModeStopsTheStep: an ALU opcode, and FE with a bad selector too (ID15). -/
theorem witness_UndefinedAddressingModeStopsTheStep :
    (atUndefinedMode.status = .running ∧ hasModRM (atUndefinedMode.readByte atUndefinedMode.ip) = true ∧
      ¬ legalModRM (atUndefinedMode.readByte (atUndefinedMode.ip + 1))) ∧
    (hasModRM ((start 0 [0xFE, 0x10]).readByte 0) = true ∧ ¬ legalModRM ((start 0 [0xFE, 0x10]).readByte 1)) := by
  unfold legalModRM
  decide

/-- BadSubSelectorStopsTheStep: FE /2 and FE /7, C6 /1 and C7 /7, the ends of the ranges. -/
theorem witness_BadSubSelectorStopsTheStep :
    ((start 0 [0xFE, 0xD0]).status = .running ∧
      badSelectorOf ((start 0 [0xFE, 0xD0]).readByte (start 0 [0xFE, 0xD0]).ip)
        ((start 0 [0xFE, 0xD0]).readByte ((start 0 [0xFE, 0xD0]).ip + 1)) ∧
      legalModRM ((start 0 [0xFE, 0xD0]).readByte ((start 0 [0xFE, 0xD0]).ip + 1))) ∧
    badSelectorOf 0xFE 0xF8 ∧ badSelectorOf 0xC6 0xC8 ∧ badSelectorOf 0xC7 0xF8 ∧
    ¬ badSelectorOf 0xFE 0xC8 ∧ ¬ badSelectorOf 0xC6 0xC0 := by
  unfold badSelectorOf legalModRM
  decide

theorem witness_UndefinedOperandAborts :
    (Instr.sbbEvSIb (.undefined 2 6) 0).modRM = some (3, .undefined 2 6) ∧ (RM.undefined 2 6).isUndefined = true := by
  decide

theorem witness_TerminalStatusIsPermanent : State.status { atNop with status := .stackFault } ≠ .running := by decide

/-- TerminalConditionsArePrecise: one step of each kind that ends a run; a halt and an unsupported opcode fix ip. -/
theorem witness_TerminalConditionsArePrecise :
    (atHalt.status = .running ∧ step atHalt = .next ((atHalt.setIp 1).raise .halted) ∧
      ((atHalt.setIp 1).raise .halted).status ≠ .running ∧
      ((atHalt.setIp 1).raise .halted).status.leavesIpOpen = false) ∧
    (atStackFault.status = .running ∧ step atStackFault = .next ((atStackFault.setIp 0x0201).raise .stackFault) ∧
      ((atStackFault.setIp 0x0201).raise .stackFault).status ≠ .running) ∧
    (Status.unsupported 0xF1).leavesIpOpen = false :=
  ⟨⟨rfl, rfl, by decide, rfl⟩, ⟨rfl, rfl, by decide⟩, rfl⟩

/-- StepKeepsTheInvariant and StepKeepsTheParameters: a state with the invariant, and its step. -/
theorem witness_StepKeepsTheInvariant : atNop.Inv ∧ step atNop = .next (atNop.setIp 1) :=
  ⟨⟨by decide, by decide⟩, rfl⟩

theorem witness_StepKeepsTheParameters : step atNop = .next (atNop.setIp 1) := rfl

/-- FreeValuesAreNeverRead: two different states that agree, one pair Running, one pair with ip left open. -/
theorem witness_FreeValuesAreNeverRead :
    (let s := atNop
     let t := { atNop with draws := 7 }
     s ≠ t ∧ t.mem = s.mem ∧ t.rb = s.rb ∧ t.flags = s.flags ∧ t.status = s.status ∧ t.params = s.params ∧
       (s.status.leavesIpOpen = false → t.ip = s.ip)) ∧
    (let s := { atNop with status := .stackFault }
     let t := { atNop with status := .stackFault, ip := 0x1234 }
     s ≠ t ∧ t.mem = s.mem ∧ t.rb = s.rb ∧ t.flags = s.flags ∧ t.status = s.status ∧ t.params = s.params ∧
       (s.status.leavesIpOpen = false → t.ip = s.ip)) := by
  decide

theorem witness_IncDecParameterTouchesOnlyCarry :
    goes ((start 0 [0x40]).setReg16 .ax 0xFFFF) (fun t => ((t.setIp 1).setReg16 .ax 0).setFlags ⟨true, true, false⟩) = true ∧
    goes ((startWith keepsCarry 0 [0x40]).setReg16 .ax 0xFFFF)
      (fun t => ((t.setIp 1).setReg16 .ax 0).setFlags ⟨false, true, false⟩) = true := by
  decide

theorem witness_OnlyFlagWritersWriteFlags :
    (exec .nop atNop = .next atNop ∧ flagUse .nop = .writesNone) ∧
    (exec .stc atNop = .next (atNop.setFlags ⟨true, false, false⟩) ∧ flagUse .stc = .setsCarry) :=
  ⟨⟨rfl, rfl⟩, rfl, rfl⟩

/-- InstructionsEndOnlyAsTheirRulesSay: an instruction of each kind of ending. -/
theorem witness_InstructionsEndOnlyAsTheirRulesSay :
    atNop.status = .running ∧ (exec .nop atNop = .next atNop ∧ ending .nop = .running) ∧
    (exec .hlt atNop = .next (atNop.raise .halted) ∧ ending .hlt = .halted) ∧
    (exec (.incEb (.undefined 0 0)) atNop = .next (atNop.raise (.aborted (.badAddressingMode 0x00))) ∧
      ending (.incEb (.undefined 0 0)) = .runningOrBadMode) ∧
    (atStackFault.status = .running ∧ exec (.pushR16 .ax) atStackFault = .next (atStackFault.raise .stackFault) ∧
      ending (.pushR16 .ax) = .runningOrStackFault) :=
  ⟨rfl, ⟨rfl, rfl⟩, ⟨rfl, rfl⟩, ⟨rfl, rfl⟩, rfl, rfl, rfl⟩

/-- CarryIsTrueCarryButForTheQuirk: V11 meets the first clause, and so does b + cin at its greatest; V7 meets the second. -/
theorem witness_CarryIsTrueCarryButForTheQuirk :
    trueResult .sbb 0x0003 0x0003 1 = some (-1) ∧ 0x0003 + 1 ≤ 2 ^ 16 - 1 ∧
    trueResult .adc 0x1234 0xFFFE 1 = some 0x11233 ∧ 0xFFFE + 1 ≤ 2 ^ 16 - 1 ∧
    trueResult .add 0xFF 0x01 0 = some 0x100 ∧
    trueResult .adc 0x1234 0xFFFF 1 = some 0x11234 ∧ (0xFFFF : Word).toNat = 2 ^ 16 - 1 := by
  decide

/-! The operand forms: a row of the list of forms where there is one, a register operand, a memory operand at the top of the
address space, an undefined operand, and a defined one. -/

theorem witness_AluRm8RegEffect :
    (AluOp.add, Instr.addEbGb) ∈ formsEbGb ∧ resolve (.reg .sp) atNop = some (.reg 8) ∧ resolve (.direct 0xFFFF) atNop = some (.mem 0xFFFF) ∧
    (RM.undefined 0 0).isUndefined = true ∧ (RM.direct 0xFFFF).isUndefined = false :=
  ⟨by simp [formsEbGb], by decide⟩

theorem witness_AluRm16RegEffect :
    (AluOp.adc, Instr.adcEvGv) ∈ formsEvGv ∧ resolve (.reg .sp) atNop = some (.reg 8) ∧ resolve (.direct 0xFFFF) atNop = some (.mem 0xFFFF) ∧
    (RM.undefined 0 0).isUndefined = true ∧ (RM.direct 0xFFFF).isUndefined = false :=
  ⟨by simp [formsEvGv], by decide⟩

theorem witness_AluReg8RmEffect :
    (AluOp.sbb, Instr.sbbGbEb) ∈ formsGbEb ∧ resolve (.reg .sp) atNop = some (.reg 8) ∧ resolve (.direct 0xFFFF) atNop = some (.mem 0xFFFF) ∧
    (RM.undefined 0 0).isUndefined = true ∧ (RM.direct 0xFFFF).isUndefined = false :=
  ⟨by simp [formsGbEb], by decide⟩

theorem witness_AluReg16RmEffect :
    (AluOp.cmp, Instr.cmpGvEv) ∈ formsGvEv ∧ resolve (.reg .sp) atNop = some (.reg 8) ∧ resolve (.direct 0xFFFF) atNop = some (.mem 0xFFFF) ∧
    (RM.undefined 0 0).isUndefined = true ∧ (RM.direct 0xFFFF).isUndefined = false :=
  ⟨by simp [formsGvEv], by decide⟩

theorem witness_AluRm8ImmEffect :
    (AluOp.and, Instr.andEbIb) ∈ formsEbIb ∧ resolve (.reg .sp) atNop = some (.reg 8) ∧ resolve (.direct 0xFFFF) atNop = some (.mem 0xFFFF) ∧
    (RM.undefined 0 0).isUndefined = true ∧ (RM.direct 0xFFFF).isUndefined = false :=
  ⟨by simp [formsEbIb], by decide⟩

theorem witness_AluRm16ImmEffect :
    (AluOp.or, Instr.orEvIw) ∈ formsEvIw ∧ resolve (.reg .sp) atNop = some (.reg 8) ∧ resolve (.direct 0xFFFF) atNop = some (.mem 0xFFFF) ∧
    (RM.undefined 0 0).isUndefined = true ∧ (RM.direct 0xFFFF).isUndefined = false :=
  ⟨by simp [formsEvIw], by decide⟩

theorem witness_AluRm16SignedImmEffect :
    (AluOp.xor, Instr.xorEvSIb) ∈ formsEvSIb ∧ resolve (.reg .sp) atNop = some (.reg 8) ∧ resolve (.direct 0xFFFF) atNop = some (.mem 0xFFFF) ∧
    (RM.undefined 0 0).isUndefined = true ∧ (RM.direct 0xFFFF).isUndefined = false :=
  ⟨by simp [formsEvSIb], by decide⟩

theorem witness_IncDecRm8Effect :
    resolve (.reg .sp) atNop = some (.reg 8) ∧ resolve (.direct 0xFFFF) atNop = some (.mem 0xFFFF) ∧
    (RM.undefined 0 0).isUndefined = true ∧ (RM.direct 0xFFFF).isUndefined = false := by
  decide

theorem witness_MovRmRegEffect :
    resolve (.reg .sp) atNop = some (.reg 8) ∧ resolve (.direct 0xFFFF) atNop = some (.mem 0xFFFF) ∧
    (RM.undefined 0 0).isUndefined = true ∧ (RM.direct 0xFFFF).isUndefined = false := by
  decide

theorem witness_MovRegRmEffect :
    resolve (.reg .sp) atNop = some (.reg 8) ∧ resolve (.direct 0xFFFF) atNop = some (.mem 0xFFFF) ∧
    (RM.undefined 0 0).isUndefined = true ∧ (RM.direct 0xFFFF).isUndefined = false := by
  decide

theorem witness_MovRmImmEffect :
    resolve (.reg .sp) atNop = some (.reg 8) ∧ resolve (.direct 0xFFFF) atNop = some (.mem 0xFFFF) ∧
    (RM.undefined 0 0).isUndefined = true ∧ (RM.direct 0xFFFF).isUndefined = false := by
  decide

/-- XchgRm8RegEffect: also the operand that is the register itself (MX15). -/
theorem witness_XchgRm8RegEffect :
    resolve (.reg .sp) atNop = some (.reg 8) ∧ resolve (.direct 0xFFFF) atNop = some (.mem 0xFFFF) ∧
    (RM.undefined 0 0).isUndefined = true ∧ RM.reg .ax = .reg RegNum.ax := by
  decide

theorem witness_XchgAxRegEffect : (Instr.xchgAxDi, RegNum.di) ∈ xchgAxForms := by decide

/-! The push check: SP 2 is allowed, SP 1 and SP 0 are not under Fault and are under Wrap (ST6 to ST8, ST12). The pop check:
SP 0xFFFD is allowed, 0xFFFE and 0xFFFF are not under Fault and are under Wrap (ST9, ST10, ST13). -/

theorem witness_PushEffect :
    pushAllowed (atNop.setReg16 .sp 0x0002) ∧ ¬ pushAllowed (atNop.setReg16 .sp 0x0001) ∧
    ¬ pushAllowed (atNop.setReg16 .sp 0x0000) ∧ pushAllowed ((startWith wraps 0 []).setReg16 .sp 0x0001) := by
  unfold pushAllowed
  decide

theorem witness_PushPopRoundTrip :
    pushAllowed (atNop.setReg16 .sp 0x0002) ∧ ¬ pushAllowed (atNop.setReg16 .sp 0x0001) ∧
    ¬ pushAllowed (atNop.setReg16 .sp 0x0000) ∧ pushAllowed ((startWith wraps 0 []).setReg16 .sp 0x0001) ∧
    RegNum.ax ≠ RegNum.sp := by
  unfold pushAllowed
  decide

theorem witness_CallThenRetReturns :
    pushAllowed (atNop.setReg16 .sp 0x0002) ∧ ¬ pushAllowed (atNop.setReg16 .sp 0x0001) ∧
    ¬ pushAllowed (atNop.setReg16 .sp 0x0000) ∧ pushAllowed ((startWith wraps 0 []).setReg16 .sp 0x0001) := by
  unfold pushAllowed
  decide

theorem witness_PopEffect :
    popAllowed (atNop.setReg16 .sp 0xFFFD) ∧ ¬ popAllowed (atNop.setReg16 .sp 0xFFFE) ∧
    ¬ popAllowed (atNop.setReg16 .sp 0xFFFF) ∧ popAllowed ((startWith wraps 0 []).setReg16 .sp 0xFFFE) ∧
    RegNum.ax ≠ RegNum.sp := by
  unfold popAllowed
  decide

theorem witness_RetEffect :
    popAllowed (atNop.setReg16 .sp 0xFFFD) ∧ ¬ popAllowed (atNop.setReg16 .sp 0xFFFE) ∧
    ¬ popAllowed (atNop.setReg16 .sp 0xFFFF) ∧ popAllowed ((startWith wraps 0 []).setReg16 .sp 0xFFFE) := by
  unfold popAllowed
  decide

/-- StackWrapFaults: each clause at its values, and a running step under Wrap (ST7, ST10). -/
theorem witness_StackWrapFaults :
    (atNop.params.stackWrap = .fault ∧ (atNop.setReg16 .sp 0x0000).sp = 0x0000 ∧ (atNop.setReg16 .sp 0x0001).sp = 0x0001 ∧
      (atNop.setReg16 .sp 0xFFFE).sp = 0xFFFE ∧ (atNop.setReg16 .sp 0xFFFF).sp = 0xFFFF) ∧
    ((startWith wraps 0x0200 [0x50]).setReg16 .sp 0x0001).params.stackWrap = .wrap ∧
    ((startWith wraps 0x0200 [0x50]).setReg16 .sp 0x0001).status = .running ∧
    goes ((startWith wraps 0x0200 [0x50]).setReg16 .sp 0x0001) (fun t => (t.setIp 0x0201).setReg16 .sp 0xFFFF) = true := by
  decide

/-- ShortJumpEffect: a row, a Running state with the opcode and displacement at ip, and the condition both ways. -/
theorem witness_ShortJumpEffect :
    (Instr.jbRel8, (0x72 : Byte), fun f : Flags => f.cf) ∈ shortJumps ∧
    (start 0x0013 [0x72, 0x02]).status = .running ∧ (start 0x0013 [0x72, 0x02]).readByte 0x0013 = 0x72 ∧
    (start 0x0013 [0x72, 0x02]).readByte 0x0014 = 0x02 ∧ (start 0x0013 [0x72, 0x02]).flags.cf = false ∧
    ((start 0x0013 [0x72, 0x02]).setFlags ⟨true, false, false⟩).flags.cf = true :=
  ⟨by simp [shortJumps], by decide⟩

/-- CallEffect, the step clause (CT18). -/
theorem witness_CallEffect :
    (start 0x0003 [0xE8, 0x04, 0x00]).status = .running ∧
    (start 0x0003 [0xE8, 0x04, 0x00]).readByte (start 0x0003 [0xE8, 0x04, 0x00]).ip = 0xE8 ∧
    (start 0x0003 [0xE8, 0x04, 0x00]).readWord ((start 0x0003 [0xE8, 0x04, 0x00]).ip + 1) = 0x0004 ∧
    pushAllowed (start 0x0003 [0xE8, 0x04, 0x00]) ∧ ¬ pushAllowed (atNop.setReg16 .sp 0x0000) := by
  unfold pushAllowed
  decide

/-- NopStcHltEffect, the step clauses (MS1 to MS3): each opcode byte at ip of a Running state. -/
theorem witness_NopStcHltEffect :
    (atNop.status = .running ∧ atNop.readByte atNop.ip = 0x90) ∧
    ((start 0x0000 [0xF9]).status = .running ∧ (start 0x0000 [0xF9]).readByte (start 0x0000 [0xF9]).ip = 0xF9) ∧
    (atHalt.status = .running ∧ atHalt.readByte atHalt.ip = 0xF4) := by
  decide

/-- AluFunctionByNumbers, AluArithmeticLaws, IncDecReg16Effect: their hypotheses are a width and an operation. -/
theorem witness_AluFunctionByNumbers : ((8 : Nat) = 8 ∨ (8 : Nat) = 16) ∧ ((16 : Nat) = 8 ∨ (16 : Nat) = 16) := by decide

theorem witness_AluArithmeticLaws : (AluOp.and = .and ∨ AluOp.and = .or ∨ AluOp.and = .xor) := by decide

/-- LoadPlacesTheImage: an address outside the image, at its end. -/
theorem witness_LoadPlacesTheImage : ([0xF4] : List Byte).length ≤ (0x0001 : Word).toNat := by decide

/-- CompletionOutputIsTheWindow: a state of each terminal status. -/
theorem witness_CompletionOutputIsTheWindow :
    State.status { atNop with status := .halted } = .halted ∧
    State.status { atNop with status := .unsupported 0xF1 } = .unsupported 0xF1 ∧
    State.status { atNop with status := .stackFault } = .stackFault ∧
    State.status { atNop with status := .aborted (.badSubOpcode 0xFE 2) } = .aborted (.badSubOpcode 0xFE 2) := by
  decide

theorem witness_StepCountEndsWithTheTerminalStep :
    State.status { atNop with status := .halted } ≠ .running ∧ atNop.status = .running ∧
    step atNop = .next (atNop.setIp 1) :=
  ⟨by decide, rfl, rfl⟩

end Sys2Proof.Tests
end

/-! PROOFS. The decoder never runs out of the six fetched bytes (30_encoding.md R60, R69). -/

namespace Sys2Proof

/-- On a list of at least `n` bytes the parser never runs out of bytes. -/
def NeedsAtMost (n : Nat) (k : List Byte → Decoded) : Prop :=
  ∀ bs : List Byte, n ≤ bs.length → k bs ≠ .error .truncated

namespace NeedsAtMost

theorem mono {m n : Nat} {k : List Byte → Decoded} (h : NeedsAtMost m k) (hle : m ≤ n) : NeedsAtMost n k :=
  fun bs hn => h bs (hle.trans hn)

theorem ok {n : Nat} (i : Instr) : NeedsAtMost n fun bs => .ok (i, bs) :=
  fun _ _ => nofun

theorem badSelector {n : Nat} (op : Byte) (reg : RegNum) (rm : RM) :
    NeedsAtMost n fun _ => badSelector op reg rm := by
  intro bs _
  unfold Sys2Proof.badSelector
  split <;> nofun

theorem ite {n : Nat} {p : Prop} [Decidable p] {k k' : List Byte → Decoded} (h : NeedsAtMost n k)
    (h' : NeedsAtMost n k') : NeedsAtMost n fun bs => if p then k bs else k' bs := by
  split
  · exact h
  · exact h'

theorem withByte {n : Nat} {k : Byte → List Byte → Decoded} (h : ∀ b, NeedsAtMost n (k b)) :
    NeedsAtMost (n + 1) fun bs => withByte bs k
  | b :: rest, hlen => h b rest (Nat.le_of_succ_le_succ hlen)

theorem withWord {n : Nat} {k : Word → List Byte → Decoded} (h : ∀ v, NeedsAtMost n (k v)) :
    NeedsAtMost (n + 2) fun bs => withWord bs k :=
  withByte fun _ => withByte fun _ => h _

/-- A ModR/M byte takes at most two displacement bytes with it (30_encoding.md R65). -/
theorem withModRM {n : Nat} {k : RegNum → RM → List Byte → Decoded} (h : ∀ reg rm, NeedsAtMost n (k reg rm)) :
    NeedsAtMost (n + 3) fun bs => withModRM bs k := by
  have noDisp (reg : RegNum) (rm : RM) : NeedsAtMost (n + 2) (k reg rm) := (h reg rm).mono (by omega)
  have disp8 (reg : RegNum) (f : Byte → RM) : NeedsAtMost (n + 2) fun bs => Sys2Proof.withByte bs fun d => k reg (f d) :=
    withByte fun d => (h reg (f d)).mono (by omega)
  have disp16 (reg : RegNum) (f : Word → RM) : NeedsAtMost (n + 2) fun bs => Sys2Proof.withWord bs fun d => k reg (f d) :=
    withWord fun d => h reg (f d)
  refine withByte fun m => ?_
  dsimp only
  split
  · exact noDisp _ (.reg _)
  · exact noDisp _ .bxDi
  · exact disp16 _ .direct
  · exact noDisp _ .bx
  · exact disp8 _ .bpDiDisp
  · exact disp16 _ .diDisp
  · exact disp16 _ .bxDisp
  · exact noDisp _ (.undefined _ _)

theorem withImm8 {n : Nat} {rm : RM} {k : Byte → List Byte → Decoded} (h : ∀ imm, NeedsAtMost n (k imm)) :
    NeedsAtMost (n + 1) fun bs => withImm8 rm bs k :=
  ite ((h 0).mono (by omega)) (withByte h)

theorem withImm16 {n : Nat} {rm : RM} {k : Word → List Byte → Decoded} (h : ∀ imm, NeedsAtMost n (k imm)) :
    NeedsAtMost (n + 2) fun bs => withImm16 rm bs k :=
  ite ((h 0).mono (by omega)) (withWord h)

/-- Every handler needs at most five bytes after the opcode: a ModR/M byte, a disp16 and an imm16. -/
theorem decodeForm (op : Byte) (form : Form) : NeedsAtMost 5 fun bs => decodeForm op bs form := by
  cases form <;> dsimp only [Sys2Proof.decodeForm]
  case aluEbGb | aluEvGv | aluGbEb | aluGvEv | xchgEbGb | movEbGb | movEvGv | movGbEb | movGvEv =>
    exact withModRM fun _ _ => ok _
  case grp1EbIb | grp1EvSIb => exact withModRM fun _ _ => withImm8 fun _ => ok _
  case grp1EvIw => exact withModRM fun _ _ => withImm16 fun _ => ok _
  case movEbIb => exact withModRM fun _ _ => ite (withImm8 fun _ => ok _) (badSelector _ _ _)
  case movEvIw => exact withModRM fun _ _ => ite (withImm16 fun _ => ok _) (badSelector _ _ _)
  case grp2Eb => exact withModRM fun _ _ => ite (ok _) (ite (ok _) (badSelector _ _ _))
  case jb | jz | jnz | jbe | ja | jns | jmp | movR8Ib => exact withByte fun _ => ok _
  case movR16Iw | call => exact withWord fun _ => ok _
  case incR16 | decR16 | pushR16 | popR16 | nop | xchgAxCx | xchgAxDx | xchgAxBx | xchgAxSp | xchgAxBp | xchgAxSi |
      xchgAxDi | ret | hlt | stc =>
    exact ok _

/-- Six bytes are enough for the decoder (30_encoding.md R60). -/
theorem decode : NeedsAtMost 6 decode
  | op :: bs, hlen => by
    cases hf : formOf op with
    | some form =>
      rw [decode_cons hf]
      exact decodeForm op form bs (Nat.le_of_succ_le_succ hlen)
    | none => simp [Sys2Proof.decode, hf]

end NeedsAtMost

theorem Machine.State.decode_fetchWindow_ne_truncated (s : Machine.State) :
    decode s.fetchWindow ≠ .error .truncated :=
  NeedsAtMost.decode s.fetchWindow (Nat.le_refl 6)

end Sys2Proof

/-! PROOFS. The step is total, and it keeps the parameters of the model (00_scope.md R6, R13; 30_encoding.md R78). -/

namespace Sys2Proof.Machine

/-- Bytes that are no instruction raise their condition as a next state, with the parameters as before. -/
theorem State.rejectFetched_next (s : State) {e : DecodeError} (he : e ≠ .truncated) :
    ∃ t, s.rejectFetched e = .next t ∧ t.params = s.params := by
  cases e with
  | unsupportedOpcode op => exact ⟨_, rfl, State.raise_params _ _⟩
  | badAddressingMode m => exact ⟨_, rfl, State.raise_params _ _⟩
  | badSubOpcode op reg => exact ⟨_, rfl, State.raise_params _ _⟩
  | truncated => exact absurd rfl he

/-- Completed or ended by its own condition, an instruction keeps the parameters. -/
theorem Outcomes.params_eq {i : Instr} {s t : State} (h : Outcomes i s t) : t.params = s.params := by
  cases h with
  | completes h =>
    obtain ⟨-, hparams, -⟩ := h
    exact hparams
  | badMode | stackFault | halts => exact State.raise_params _ _

/-- Every step answers a next state, and that state has the parameters of the one before. -/
theorem step_next_params (s : State) : ∃ t, step s = .next t ∧ t.params = s.params := by
  rcases step_cases s with ⟨-, h⟩ | ⟨i, rest, -, -, h⟩ | ⟨e, -, hd, h⟩
  · exact ⟨s, h, rfl⟩
  · obtain ⟨t, ht, hout⟩ := exec_cases i (s.pastFetched rest)
    exact ⟨t, h.trans ht, hout.params_eq⟩
  · have he : e ≠ .truncated := fun he => s.decode_fetchWindow_ne_truncated (he ▸ hd)
    rw [h]
    exact s.rejectFetched_next he

/-- Settles O15: six fetched bytes are always enough, and every instruction answers a next state. -/
theorem stepAlwaysAnswersNext : Obligations.StepAlwaysAnswersNext := by
  intro s
  obtain ⟨t, ht, -⟩ := step_next_params s
  exact ⟨t, ht⟩

/-- Settles O19: completing an instruction and raising a condition both leave the parameters alone. -/
theorem stepKeepsTheParameters : Obligations.StepKeepsTheParameters := by
  intro s t h
  obtain ⟨u, hu, hp⟩ := step_next_params s
  cases h.symm.trans hu
  exact hp

end Sys2Proof.Machine

/-! PROOFS. Reset (10_state.md R33 to R37), and the register file by its bytes (R21, R23). -/

namespace Sys2Proof.Machine

/-- The reset state has empty memory and the status `Running`, whatever the parameters. -/
theorem State.inv_resetWith (p : Config.Params) (g : Config.ResetGpr) : (State.resetWith p g).Inv :=
  ⟨rfl, rfl⟩

/-- Settles O17, of which `State.reset` is one case. -/
theorem resetMeetsTheInvariant : Obligations.ResetMeetsTheInvariant :=
  ⟨State.inv_resetWith, State.inv_resetWith _ _⟩

/-- Settles O18: each register of `RegFile.atReset` is the two bytes of its parameter, put together again. -/
theorem resetValues : Obligations.ResetValues := by
  intro p g
  refine ⟨?sp, rfl, rfl, fun _ => rfl, rfl, ?ax, ?cx, ?dx, ?bx, ?bp, ?si, ?di⟩
  case sp => exact (by decide : cat 0x01 0x00 = 0x0100)
  case ax => exact cat_hiByte_loByte g.ax
  case cx => exact cat_hiByte_loByte g.cx
  case dx => exact cat_hiByte_loByte g.dx
  case bx => exact cat_hiByte_loByte g.bx
  case bp => exact cat_hiByte_loByte g.bp
  case si => exact cat_hiByte_loByte g.si
  case di => exact cat_hiByte_loByte g.di

/-- A word register is its two bytes, the byte at the even offset the low one (10_state.md R21). -/
theorem State.reg16_toNat (s : State) (r : RegNum) :
    (s.reg16 r).toNat = (s.regByte (regOffset r)).toNat + 256 * (s.regByte (regOffset r + 1)).toNat :=
  cat_toNat _ _

theorem State.regByte_setReg16_toNat (s : State) (r : RegNum) (o : RegOff) (v : Word) :
    ((s.setReg16 r v).regByte o).toNat =
      if o = regOffset r then v.toNat % 256 else if o = regOffset r + 1 then v.toNat / 256 else (s.regByte o).toNat := by
  rw [State.regByte_setReg16]
  by_cases hlo : o = regOffset r
  · subst hlo
    simp [loByte_toNat]
  · by_cases hhi : o = regOffset r + 1#4 <;> simp [hlo, hhi, hiByte_toNat]

/-- Settles O26, with the offsets `2r` and `2r + 1` written as the model's `regOffset`. -/
theorem registerAccessByBytes : Obligations.RegisterAccessByBytes := by
  intro s r o v b
  dsimp only
  rw [← regOffset_eq, ← regOffset_succ_eq]
  refine ⟨s.reg16_toNat r, rfl, s.regByte_setReg8 r o b, s.regByte_setReg16_toNat r o v, ?_⟩
  simp [State.reg16_setReg16]

end Sys2Proof.Machine

/-! PROOFS. Which instructions write the flags (10_state.md R28). -/

namespace Sys2Proof.Machine

open Sys2Proof.Spec

/-- An operand form whose effect keeps the flags keeps them: its abort writes no data (60_exceptions.md R212). -/
theorem withOperand_keeps_flags {reg : RegNum} {rm : RM} {s t : State} {k : Ref → State}
    (h : withOperand reg rm s k = .next t) (hk : ∀ ref, (k ref).flags = s.flags) : t.flags = s.flags := by
  rcases withOperand_cases reg rm s k with ⟨ref, -, hnext⟩ | ⟨-, hnext⟩ <;> cases h.symm.trans hnext
  · exact hk ref
  · exact State.raise_flags _ _

theorem withPush_keeps_flags {s t : State} {v : Word} {k : State → State} (h : withPush s v k = .next t)
    (hk : ∀ u, (k u).flags = u.flags) : t.flags = s.flags := by
  rcases withPush_cases s v k with ⟨-, hnext⟩ | ⟨-, -, hnext⟩ <;> cases h.symm.trans hnext
  · exact (hk _).trans (s.push16_flags v)
  · exact State.raise_flags _ _

theorem withPop_keeps_flags {s t : State} {k : Word → State → State} (h : withPop s k = .next t)
    (hk : ∀ v u, (k v u).flags = u.flags) : t.flags = s.flags := by
  rcases withPop_cases s k with ⟨-, hnext⟩ | ⟨-, -, hnext⟩ <;> cases h.symm.trans hnext
  · exact (hk _ _).trans s.pop16_flags
  · exact State.raise_flags _ _

theorem jumpIf_keeps_flags {taken : Bool} {rel : Byte} {s t : State} (h : jumpIf taken rel s = .next t) :
    t.flags = s.flags := by
  cases taken <;> cases h <;> rfl

/-- An instruction outside the ALU group, INC, DEC and STC leaves the flags (10_state.md R28; 41_move_exchange.md R141). -/
theorem exec_keeps_flags {i : Instr} {s t : State} (hi : flagUse i = .writesNone) (h : exec i s = .next t) :
    t.flags = s.flags := by
  cases i
  case movEbGb | movEbIb => exact withOperand_keeps_flags h fun ref => s.writeRef8_flags ref _
  case movEvGv | movEvIw => exact withOperand_keeps_flags h fun ref => s.writeRef16_flags ref _
  case movGbEb | movGvEv => exact withOperand_keeps_flags h fun _ => rfl
  case xchgEbGb => exact withOperand_keeps_flags h fun ref => s.writeRef8_flags ref _
  case pushR16 => exact withPush_keeps_flags (k := id) h fun _ => rfl
  case callRel16 rel => exact withPush_keeps_flags (k := fun u => u.setIp (s.ip + rel)) h fun _ => rfl
  case popR16 r => exact withPop_keeps_flags (k := fun v u => u.setReg16 r v) h fun _ _ => rfl
  case ret => exact withPop_keeps_flags (k := fun v u => u.setIp v) h fun _ _ => rfl
  case jbRel8 | jzRel8 | jnzRel8 | jbeRel8 | jaRel8 | jnsRel8 | jmpRel8 => exact jumpIf_keeps_flags h
  case movR8Ib | movR16Iw | xchgAxCx | xchgAxDx | xchgAxBx | xchgAxSp | xchgAxBp | xchgAxSi | xchgAxDi | nop | hlt =>
    cases h
    rfl
  all_goals cases hi

/-- STC alone sets CF without writing ZF and SF (45_misc.md R201). -/
theorem eq_stc_of_setsCarry {i : Instr} (hi : flagUse i = .setsCarry) : i = .stc := by
  cases i
  case stc => rfl
  all_goals cases hi

/-- Settles O22: an instruction outside the flag writers keeps the flags, and the one that sets CF alone is STC. -/
theorem onlyFlagWritersWriteFlags : Obligations.OnlyFlagWritersWriteFlags := by
  refine ⟨fun i s t h => ⟨fun hi => exec_keeps_flags hi h, fun hi => ?_⟩, fun _ _ => rfl⟩
  cases eq_stc_of_setsCarry hi
  cases h
  rfl

end Sys2Proof.Machine

/-! PROOFS. The decoder on the bytes the encoder wrote (30_encoding.md R60, R67 to R69), and the step that runs them. -/

namespace Sys2Proof

/-! ### The opcodes of the families -/

@[simp] theorem regField_aluOpcode (k : AluOp) : ∀ d w : BitVec 1, regField (aluOpcode k d w) = k.code := by
  cases k <;> decide

/-- The families whose opcode holds a register number in `op[2:0]` (30_encoding.md R67). -/
theorem formOf_regOpcode : ∀ r : RegNum,
    formOf (regOpcode 0b01000#5 r) = some .incR16 ∧ formOf (regOpcode 0b01001#5 r) = some .decR16 ∧
    formOf (regOpcode 0b01010#5 r) = some .pushR16 ∧ formOf (regOpcode 0b01011#5 r) = some .popR16 ∧
    formOf (regOpcode 0b10110#5 r) = some .movR8Ib ∧ formOf (regOpcode 0b10111#5 r) = some .movR16Iw := by
  decide

/-- Bytes whose opcode has a handler decode as the handler says. -/
theorem decode_of_form {op : Byte} {form : Form} {bs rest : List Byte} {i : Instr} (hform : formOf op = some form)
    (hparse : decodeForm op (bs ++ rest) form = .ok (i, rest)) : decode (op :: bs ++ rest) = .ok (i, rest) := by
  rw [List.cons_append, decode_cons hform, hparse]

/-! ### The ALU forms, by their operation -/

section
variable (op : AluOp) {rm : RM} (reg : RegNum) (rest : List Byte)

theorem decode_aluEbGb (h : rm.wf = true) :
    decode (aluOpcode op 0 0 :: rm.encode reg ++ rest) = .ok (aluEbGb op rm reg, rest) :=
  decode_of_form (form := .aluEbGb) (by cases op <;> decide) (by simp [decodeForm, withModRM_encode, h])

theorem decode_aluEvGv (h : rm.wf = true) :
    decode (aluOpcode op 0 1 :: rm.encode reg ++ rest) = .ok (aluEvGv op rm reg, rest) :=
  decode_of_form (form := .aluEvGv) (by cases op <;> decide) (by simp [decodeForm, withModRM_encode, h])

theorem decode_aluGbEb (h : rm.wf = true) :
    decode (aluOpcode op 1 0 :: rm.encode reg ++ rest) = .ok (aluGbEb op reg rm, rest) :=
  decode_of_form (form := .aluGbEb) (by cases op <;> decide) (by simp [decodeForm, withModRM_encode, h])

theorem decode_aluGvEv (h : rm.wf = true) :
    decode (aluOpcode op 1 1 :: rm.encode reg ++ rest) = .ok (aluGvEv op reg rm, rest) :=
  decode_of_form (form := .aluGvEv) (by cases op <;> decide) (by simp [decodeForm, withModRM_encode, h])

theorem decode_aluEbIb {imm : Byte} (h : rm.wfImm imm = true) :
    decode (0x80 :: (rm.encode op.code ++ rm.imm8Bytes imm) ++ rest) = .ok (aluEbIb op rm imm, rest) :=
  decode_of_form (form := .grp1EbIb) (by decide)
    (by simp [decodeForm, withModRM_encode, withImm8_bytes, RM.wf_of_wfImm h, h])

theorem decode_aluEvIw {imm : Word} (h : rm.wfImm imm = true) :
    decode (0x81 :: (rm.encode op.code ++ rm.imm16Bytes imm) ++ rest) = .ok (aluEvIw op rm imm, rest) :=
  decode_of_form (form := .grp1EvIw) (by decide)
    (by simp [decodeForm, withModRM_encode, withImm16_bytes, RM.wf_of_wfImm h, h])

theorem decode_aluEvSIb {imm : Byte} (h : rm.wfImm imm = true) :
    decode (0x83 :: (rm.encode op.code ++ rm.imm8Bytes imm) ++ rest) = .ok (aluEvSIb op rm imm, rest) :=
  decode_of_form (form := .grp1EvSIb) (by decide)
    (by simp [decodeForm, withModRM_encode, withImm8_bytes, RM.wf_of_wfImm h, h])

end

/-- The decoder inverts the encoder on well-formed instructions, whatever follows. -/
theorem decode_encode {i : Instr} (rest : List Byte) (h : i.wf = true) : decode (encode i ++ rest) = .ok (i, rest) := by
  cases i
  case addEbGb | orEbGb | adcEbGb | sbbEbGb | andEbGb | subEbGb | xorEbGb | cmpEbGb => exact decode_aluEbGb _ _ rest h
  case addEvGv | orEvGv | adcEvGv | sbbEvGv | andEvGv | subEvGv | xorEvGv | cmpEvGv => exact decode_aluEvGv _ _ rest h
  case addGbEb | orGbEb | adcGbEb | sbbGbEb | andGbEb | subGbEb | xorGbEb | cmpGbEb => exact decode_aluGbEb _ _ rest h
  case addGvEv | orGvEv | adcGvEv | sbbGvEv | andGvEv | subGvEv | xorGvEv | cmpGvEv => exact decode_aluGvEv _ _ rest h
  case addEbIb | orEbIb | adcEbIb | sbbEbIb | andEbIb | subEbIb | xorEbIb | cmpEbIb => exact decode_aluEbIb _ rest h
  case addEvIw | orEvIw | adcEvIw | sbbEvIw | andEvIw | subEvIw | xorEvIw | cmpEvIw => exact decode_aluEvIw _ rest h
  case addEvSIb | orEvSIb | adcEvSIb | sbbEvSIb | andEvSIb | subEvSIb | xorEvSIb | cmpEvSIb =>
    exact decode_aluEvSIb _ rest h
  case xchgEbGb | movEbGb | movEvGv | movGbEb | movGvEv =>
    exact decode_of_form rfl (by rw [decodeForm, withModRM_encode _ _ _ _ h])
  case incEb | decEb => exact decode_of_form rfl (by rw [decodeForm, withModRM_encode _ _ _ _ h]; rfl)
  case movEbIb =>
    refine decode_of_form rfl ?_
    rw [decodeForm, List.append_assoc, withModRM_encode _ _ _ _ (RM.wf_of_wfImm h), if_pos rfl, withImm8_bytes _ _ _ _ h]
  case movEvIw =>
    refine decode_of_form rfl ?_
    rw [decodeForm, List.append_assoc, withModRM_encode _ _ _ _ (RM.wf_of_wfImm h), if_pos rfl, withImm16_bytes _ _ _ _ h]
  case incR16 | decR16 | pushR16 | popR16 | movR8Ib | movR16Iw =>
    simp [encode, decode, decodeForm, formOf_regOpcode]
  case xchgAxCx | xchgAxDx | xchgAxBx | xchgAxSp | xchgAxBp | xchgAxSi | xchgAxDi | ret | nop | stc | hlt => rfl
  case jbRel8 | jzRel8 | jnzRel8 | jbeRel8 | jaRel8 | jnsRel8 | jmpRel8 => rfl
  case callRel16 rel => exact congrArg (fun v => (.ok (.callRel16 v, rest) : Decoded)) (cat_hiByte_loByte rel)

/-! ### The length of an encoding -/

/-- Every instruction is encoded in 1 to 6 bytes (30_encoding.md R60). -/
theorem Laws.EncodedLength.holds (i : Instr) : Statement i := by
  cases i
  case incR16 | decR16 | pushR16 | popR16 | movR8Ib | movR16Iw | xchgAxCx | xchgAxDx | xchgAxBx | xchgAxSp | xchgAxBp |
      xchgAxSi | xchgAxDi | jbRel8 | jzRel8 | jnzRel8 | jbeRel8 | jaRel8 | jnsRel8 | jmpRel8 | callRel16 | ret | nop |
      stc | hlt =>
    simp [Statement, encode]
  case addEbIb | orEbIb | adcEbIb | sbbEbIb | andEbIb | subEbIb | xorEbIb | cmpEbIb | addEvSIb | orEvSIb | adcEvSIb |
      sbbEvSIb | andEvSIb | subEvSIb | xorEvSIb | cmpEvSIb | movEbIb =>
    exact of_rm_imm8 _ _ _ rfl
  case addEvIw | orEvIw | adcEvIw | sbbEvIw | andEvIw | subEvIw | xorEvIw | cmpEvIw | movEvIw =>
    exact of_rm_imm16 _ _ _ rfl
  all_goals exact of_rm _ _ rfl

end Sys2Proof

namespace Sys2Proof.Machine

/-- The fetch window holds the byte `n` after ip at place `n`. -/
theorem State.fetchWindow_getElem (s : State) (n : Nat) (h : n < s.fetchWindow.length) :
    s.fetchWindow[n] = s.readByte (s.ip + BitVec.ofNat 16 n) := by
  have hn : n < 6 := h
  interval_cases n <;> simp [State.fetchWindow]

@[simp] theorem State.fetchWindow_length (s : State) : s.fetchWindow.length = 6 := rfl

/-- Bytes that stand in memory from ip on, at most six of them, begin the fetch window. -/
theorem State.take_fetchWindow {s : State} {bs : List Byte} (hlen : bs.length ≤ 6)
    (h : ∀ (n : Nat) (hn : n < bs.length), s.readByte (s.ip + BitVec.ofNat 16 n) = bs[n]) :
    s.fetchWindow.take bs.length = bs := by
  refine List.ext_getElem (by simpa using hlen) fun n _ hn => ?_
  rw [List.getElem_take, State.fetchWindow_getElem, h n hn]

/-- Settles O8: the instruction's bytes begin the fetch window, and decoding takes exactly those. -/
theorem stepRunsTheInstructionInMemory : Obligations.StepRunsTheInstructionInMemory := by
  intro s i hwf hrun hmem
  obtain ⟨-, hlen⟩ := Laws.EncodedLength.holds i
  have hwin : encode i ++ s.fetchWindow.drop (encode i).length = s.fetchWindow := by
    conv_rhs => rw [← List.take_append_drop (encode i).length s.fetchWindow, State.take_fetchWindow hlen hmem]
  have hdec := decode_encode (s.fetchWindow.drop (encode i).length) hwf
  rw [hwin] at hdec
  rw [step_of_decode hrun hdec, State.pastFetched, List.length_drop, State.fetchWindow_length, Nat.sub_sub_self hlen]

end Sys2Proof.Machine

/-! PROOFS. Memory (20_memory.md R41 to R43): a byte or a word written is read back, and the bytes around it stay. -/

namespace Sys2Proof.Machine

/-- Settles O24: the read is the law of `writeByte`, which writes no other field of the state. -/
theorem memoryReadsBackTheLastWrite : Obligations.MemoryReadsBackTheLastWrite :=
  fun s a b v => ⟨s.readByte_writeByte a b v, rfl, rfl, rfl, rfl⟩

/-- The bytes of a word in memory, the low one first (20_memory.md R42). -/
theorem State.readWord_toNat (s : State) (a : Word) :
    (s.readWord a).toNat = (s.readByte a).toNat + 256 * (s.readByte (a + 1)).toNat :=
  cat_toNat _ _

theorem State.readByte_writeWord_toNat (s : State) (a v b : Word) :
    ((s.writeWord a v).readByte b).toNat =
      if b = a then v.toNat % 256 else if b = a + 1 then v.toNat / 256 else (s.readByte b).toNat := by
  rw [State.readByte_writeWord]
  by_cases hlo : b = a
  · subst hlo
    rw [if_neg (Word.succ_ne b).symm, if_pos rfl, if_pos rfl, loByte_toNat]
  · rw [if_neg hlo, if_neg hlo, apply_ite BitVec.toNat, hiByte_toNat]

/-- Settles O25; at 0xFFFF the address of the high byte is 0xFFFF + 1, which is 0x0000 as a word. -/
theorem wordAccessIsLittleEndianAndWraps : Obligations.WordAccessIsLittleEndianAndWraps :=
  fun s a b v =>
    ⟨s.readWord_toNat a, s.readByte_writeWord_toNat a v b, s.readWord_writeWord a v, s.readWord_toNat 0xFFFF⟩

end Sys2Proof.Machine

/-! PROOFS. Every step keeps the invariant: a write keeps the canonical form of memory, and what the decoder answers leads
to a legal status only (60_exceptions.md R210 to R213). -/

namespace Sys2Proof.Machine

/-! ### The ModR/M fields of the ALU group, by its forms -/

theorem modRM_aluEbGb (op : AluOp) (rm : RM) (reg : RegNum) : (aluEbGb op rm reg).modRM = some (reg, rm) := by
  cases op <;> rfl

theorem modRM_aluEvGv (op : AluOp) (rm : RM) (reg : RegNum) : (aluEvGv op rm reg).modRM = some (reg, rm) := by
  cases op <;> rfl

theorem modRM_aluGbEb (op : AluOp) (rm : RM) (reg : RegNum) : (aluGbEb op reg rm).modRM = some (reg, rm) := by
  cases op <;> rfl

theorem modRM_aluGvEv (op : AluOp) (rm : RM) (reg : RegNum) : (aluGvEv op reg rm).modRM = some (reg, rm) := by
  cases op <;> rfl

theorem modRM_aluEbIb (op : AluOp) (rm : RM) (imm : Byte) : (aluEbIb op rm imm).modRM = some (op.code, rm) := by
  cases op <;> rfl

theorem modRM_aluEvIw (op : AluOp) (rm : RM) (imm : Word) : (aluEvIw op rm imm).modRM = some (op.code, rm) := by
  cases op <;> rfl

theorem modRM_aluEvSIb (op : AluOp) (rm : RM) (imm : Byte) : (aluEvSIb op rm imm).modRM = some (op.code, rm) := by
  cases op <;> rfl

/-! ### What the decoder answers leads to legal statuses only -/

/-- A handler of one opcode byte: its one row of the opcode map fixes all eight bits (30_encoding.md R67). -/
theorem opcode_eq_of_formOf {op pattern : Byte} {form : Form} (hf : formOf op = some form)
    (hrow : ∀ row ∈ opcodeMap, row.form = form → row.mask = BitVec.allOnes 8 ∧ row.pattern = pattern) : op = pattern := by
  obtain ⟨row, hfind, hform⟩ := Option.map_eq_some_iff.1 hf
  obtain ⟨hmask, hpattern⟩ := hrow row (List.mem_of_find?_eq_some hfind) hform
  have hcovers : op &&& row.mask = row.pattern := by simpa [OpcodeRow.covers] using List.find?_some hfind
  rwa [hmask, hpattern, BitVec.and_allOnes] at hcovers

/-- The abort of a well-formed undefined operand records a ModR/M byte that causes it (60_exceptions.md R212). -/
theorem legal_badAddressingMode {rm : RM} (p : Config.Params) (reg : RegNum) (hw : rm.wf = true)
    (hu : rm.isUndefined = true) : (Status.aborted (.badAddressingMode (rm.modRMByte reg))).legal p = true := by
  cases rm with
  | undefined mode r =>
    rw [Status.legal, RM.modRMByte, RM.modeBits, RM.rmBits, modeField_append, rmField_append]
    exact hw
  | _ => cases hu

/-- What the decoder owes to the invariant: an operand that is undefined only by its (mode, rm) pair, and errors whose
conditions are legal. Running out of bytes raises no condition. -/
def LegallyDecoded (p : Config.Params) : Decoded → Prop
  | .ok (i, _) => ∀ reg rm, i.modRM = some (reg, rm) → rm.wf = true
  | .error (.unsupportedOpcode op) => (Status.unsupported op).legal p = true
  | .error (.badAddressingMode m) => (Status.aborted (.badAddressingMode m)).legal p = true
  | .error (.badSubOpcode op reg) => (Status.aborted (.badSubOpcode op reg)).legal p = true
  | .error .truncated => True

namespace LegallyDecoded

variable {p : Config.Params}

theorem noOperand {i : Instr} (rest : List Byte) (h : i.modRM = none) : LegallyDecoded p (.ok (i, rest)) :=
  fun _ _ h' => nomatch h.symm.trans h'

theorem operand {i : Instr} {reg : RegNum} {rm : RM} (rest : List Byte) (h : i.modRM = some (reg, rm))
    (hw : rm.wf = true) : LegallyDecoded p (.ok (i, rest)) := by
  intro reg' rm' h'
  cases h.symm.trans h'
  exact hw

theorem badSelector {op : Byte} {reg : RegNum} {rm : RM} (hw : rm.wf = true)
    (h : (Status.aborted (.badSubOpcode op reg)).legal p = true) : LegallyDecoded p (badSelector op reg rm) := by
  unfold Sys2Proof.badSelector
  split
  · next hu => exact legal_badAddressingMode p reg hw hu
  · exact h

theorem withByte {bs : List Byte} {k : Byte → List Byte → Decoded} (h : ∀ b rest, LegallyDecoded p (k b rest)) :
    LegallyDecoded p (withByte bs k) := by
  cases bs with
  | nil => trivial
  | cons b rest => exact h b rest

theorem withWord {bs : List Byte} {k : Word → List Byte → Decoded} (h : ∀ v rest, LegallyDecoded p (k v rest)) :
    LegallyDecoded p (withWord bs k) :=
  withByte fun _ _ => withByte fun _ _ => h _ _

/-- A ModR/M byte gives an undefined operand only after the seven defined rows (30_encoding.md R64). -/
theorem withModRM {bs : List Byte} {k : RegNum → RM → List Byte → Decoded}
    (h : ∀ reg rm rest, rm.wf = true → LegallyDecoded p (k reg rm rest)) : LegallyDecoded p (withModRM bs k) := by
  refine withByte fun m rest => ?_
  dsimp only
  split
  · exact h _ (.reg _) _ rfl
  · exact h _ .bxDi _ rfl
  · exact withWord fun d _ => h _ (.direct d) _ rfl
  · exact h _ .bx _ rfl
  · exact withByte fun d _ => h _ (.bpDiDisp d) _ rfl
  · exact withWord fun d _ => h _ (.diDisp d) _ rfl
  · exact withWord fun d _ => h _ (.bxDisp d) _ rfl
  · next h3 h01 h06 h07 h13 h25 h27 =>
    have hu : definedMode (modeField m) (rmField m) = false := by
      simpa [definedMode, ← imp_iff_not_or] using ⟨h3, h01, h06, h07, h13, h25, h27⟩
    exact h _ (.undefined _ _) _ (by simp [RM.wf, hu])

theorem withImm8 {rm : RM} {bs : List Byte} {k : Byte → List Byte → Decoded}
    (h : ∀ imm rest, LegallyDecoded p (k imm rest)) : LegallyDecoded p (withImm8 rm bs k) := by
  unfold Sys2Proof.withImm8
  split
  · exact h _ _
  · exact withByte h

theorem withImm16 {rm : RM} {bs : List Byte} {k : Word → List Byte → Decoded}
    (h : ∀ imm rest, LegallyDecoded p (k imm rest)) : LegallyDecoded p (withImm16 rm bs k) := by
  unfold Sys2Proof.withImm16
  split
  · exact h _ _
  · exact withWord h

theorem decodeForm {op : Byte} {form : Form} (bs : List Byte) (hf : formOf op = some form) :
    LegallyDecoded p (decodeForm op bs form) := by
  cases form <;> dsimp only [Sys2Proof.decodeForm]
  case aluEbGb => exact withModRM fun _ _ _ => operand _ (modRM_aluEbGb _ _ _)
  case aluEvGv => exact withModRM fun _ _ _ => operand _ (modRM_aluEvGv _ _ _)
  case aluGbEb => exact withModRM fun _ _ _ => operand _ (modRM_aluGbEb _ _ _)
  case aluGvEv => exact withModRM fun _ _ _ => operand _ (modRM_aluGvEv _ _ _)
  case grp1EbIb => exact withModRM fun _ _ _ hw => withImm8 fun _ _ => operand _ (modRM_aluEbIb _ _ _) hw
  case grp1EvIw => exact withModRM fun _ _ _ hw => withImm16 fun _ _ => operand _ (modRM_aluEvIw _ _ _) hw
  case grp1EvSIb => exact withModRM fun _ _ _ hw => withImm8 fun _ _ => operand _ (modRM_aluEvSIb _ _ _) hw
  case xchgEbGb | movEbGb | movEvGv | movGbEb | movGvEv => exact withModRM fun _ _ _ => operand _ rfl
  case movEbIb =>
    refine withModRM fun reg rm rest hw => ?_
    split
    · exact withImm8 fun _ _ => operand _ rfl hw
    · next h0 =>
      have hop : op = 0xC6 := opcode_eq_of_formOf hf (by decide)
      exact badSelector hw (by simpa [Status.legal, hop] using h0)
  case movEvIw =>
    refine withModRM fun reg rm rest hw => ?_
    split
    · exact withImm16 fun _ _ => operand _ rfl hw
    · next h0 =>
      have hop : op = 0xC7 := opcode_eq_of_formOf hf (by decide)
      exact badSelector hw (by simpa [Status.legal, hop] using h0)
  case grp2Eb =>
    refine withModRM fun reg rm rest hw => ?_
    split
    · exact operand _ rfl hw
    · next h0 =>
      split
      · exact operand _ rfl hw
      · next h1 =>
        have hop : op = 0xFE := opcode_eq_of_formOf hf (by decide)
        exact badSelector hw (by simpa [Status.legal, hop] using ⟨h0, h1⟩)
  case jb | jz | jnz | jbe | ja | jns | jmp | movR8Ib => exact withByte fun _ _ => noOperand _ rfl
  case movR16Iw | call => exact withWord fun _ _ => noOperand _ rfl
  case incR16 | decR16 | pushR16 | popR16 | nop | xchgAxCx | xchgAxDx | xchgAxBx | xchgAxSp | xchgAxBp | xchgAxSi |
      xchgAxDi | ret | hlt | stc =>
    exact noOperand _ rfl

theorem decode (bs : List Byte) : LegallyDecoded p (decode bs) := by
  cases bs with
  | nil => trivial
  | cons op bs =>
    cases hf : formOf op with
    | some form =>
      rw [decode_cons hf]
      exact decodeForm bs hf
    | none => simp [Sys2Proof.decode, hf, LegallyDecoded, Status.legal]

end LegallyDecoded

/-! ### The step -/

/-- Raising a legal condition keeps the invariant. -/
theorem State.Inv.raise {s : State} {c : Status} (hs : s.Inv) (hc : c.legal s.params = true) : (s.raise c).Inv := by
  obtain ⟨hmem, -⟩ := hs
  exact ⟨by rwa [State.raise_mem], by rwa [State.raise_status, State.raise_params]⟩

/-- Bytes that the decoder rejects raise the legal condition of their error. -/
theorem State.Inv.rejectFetched {s t : State} {e : DecodeError} (hs : s.Inv)
    (he : LegallyDecoded s.params (.error e)) (h : s.rejectFetched e = .next t) : t.Inv := by
  cases e with
  | unsupportedOpcode op =>
    cases h
    exact State.Inv.raise (s := s.setIp (s.ip + 1)) hs he
  | badAddressingMode m =>
    cases h
    exact hs.raise he
  | badSubOpcode op reg =>
    cases h
    exact hs.raise he
  | truncated => cases h

/-- Completed or ended by its own condition, an instruction with a well-formed operand keeps the invariant. -/
theorem Outcomes.inv {i : Instr} {s t : State} (h : Outcomes i s t) (hs : s.Inv)
    (hi : ∀ reg rm, i.modRM = some (reg, rm) → rm.wf = true) : t.Inv := by
  cases h with
  | completes h =>
    obtain ⟨hmem, hlegal⟩ := hs
    obtain ⟨hstatus, hparams, -, hwf⟩ := h
    exact ⟨hwf hmem, by rwa [hstatus, hparams]⟩
  | badMode reg rm hrm hu => exact hs.raise (legal_badAddressingMode _ reg (hi reg rm hrm) hu)
  | stackFault _ hp => exact hs.raise (by simp [Status.legal, hp])
  | halts => exact hs.raise rfl

/-- Settles O16, by what a step can do: stop, run a decoded instruction, or reject the bytes. -/
theorem stepKeepsTheInvariant : Obligations.StepKeepsTheInvariant := by
  intro s t hs h
  have hdec : LegallyDecoded s.params (decode s.fetchWindow) := .decode _
  rcases step_cases s with ⟨-, hstep⟩ | ⟨i, rest, -, hd, hstep⟩ | ⟨e, -, hd, hstep⟩
  · cases hstep.symm.trans h
    exact hs
  · obtain ⟨u, hu, hout⟩ := exec_cases i (s.pastFetched rest)
    cases (hstep.trans hu).symm.trans h
    rw [hd] at hdec
    exact hout.inv hs hdec
  · rw [hd] at hdec
    exact hs.rejectFetched hdec (hstep.symm.trans h)

end Sys2Proof.Machine

/-! PROOFS. The encoder inverts the decoder: whatever the decoder accepts, it has read as the encoding of the well-formed
instruction it answers (30_encoding.md R60, R67 to R69, R73). -/

namespace Sys2Proof

/-! ### The opcode byte of a handler -/

/-- The bits that every row of a handler fixes are those of an opcode byte the handler runs on (30_encoding.md R67). -/
theorem fixedBits_of_formOf {op mask pattern : Byte} {form : Form} (hf : formOf op = some form)
    (hrow : ∀ row ∈ opcodeMap, row.form = form → row.mask = mask ∧ row.pattern = pattern) : op &&& mask = pattern := by
  obtain ⟨row, hfind, hform⟩ := Option.map_eq_some_iff.1 hf
  obtain ⟨rfl, rfl⟩ := hrow row (List.mem_of_find?_eq_some hfind) hform
  simpa [OpcodeRow.covers] using List.find?_some hfind

/-- An ALU register form's opcode is its operation, direction and width (30_encoding.md R67). -/
theorem aluOpcode_regField : ∀ (op : Byte) (d w : BitVec 1), op &&& 0xC7 = (0 : BitVec 6) ++ d ++ w →
    aluOpcode (.ofCode (regField op)) d w = op := by
  decide

/-- An opcode with five fixed bits is those and its register number (30_encoding.md R67). -/
theorem regOpcode_rmField {op : Byte} {high : BitVec 5} (h : op &&& 0xF8 = high ++ (0 : BitVec 3)) :
    regOpcode high (rmField op) = op := by
  have hfields : ∀ op : Byte, op &&& 0xF8 ||| (0 : BitVec 5) ++ rmField op = op := by decide
  have happend : ∀ (high : BitVec 5) (r : RegNum), (high ++ (0 : BitVec 3)) ||| ((0 : BitVec 5) ++ r) = high ++ r := by
    decide
  rw [regOpcode, ← happend, ← h, hfields]

/-! ### The ALU forms, by their operation -/

section
variable (op : AluOp) (rm : RM) (reg : RegNum)

theorem wf_aluEbGb : (aluEbGb op rm reg).wf = rm.wf := by cases op <;> rfl

theorem wf_aluEvGv : (aluEvGv op rm reg).wf = rm.wf := by cases op <;> rfl

theorem wf_aluGbEb : (aluGbEb op reg rm).wf = rm.wf := by cases op <;> rfl

theorem wf_aluGvEv : (aluGvEv op reg rm).wf = rm.wf := by cases op <;> rfl

theorem wf_aluEbIb (imm : Byte) : (aluEbIb op rm imm).wf = rm.wfImm imm := by cases op <;> rfl

theorem wf_aluEvIw (imm : Word) : (aluEvIw op rm imm).wf = rm.wfImm imm := by cases op <;> rfl

theorem wf_aluEvSIb (imm : Byte) : (aluEvSIb op rm imm).wf = rm.wfImm imm := by cases op <;> rfl

theorem encode_aluEbGb : encode (aluEbGb op rm reg) = aluOpcode op 0 0 :: rm.encode reg := by cases op <;> rfl

theorem encode_aluEvGv : encode (aluEvGv op rm reg) = aluOpcode op 0 1 :: rm.encode reg := by cases op <;> rfl

theorem encode_aluGbEb : encode (aluGbEb op reg rm) = aluOpcode op 1 0 :: rm.encode reg := by cases op <;> rfl

theorem encode_aluGvEv : encode (aluGvEv op reg rm) = aluOpcode op 1 1 :: rm.encode reg := by cases op <;> rfl

theorem encode_aluEbIb (imm : Byte) :
    encode (aluEbIb op rm imm) = 0x80 :: (rm.encode op.code ++ rm.imm8Bytes imm) := by
  cases op <;> rfl

theorem encode_aluEvIw (imm : Word) :
    encode (aluEvIw op rm imm) = 0x81 :: (rm.encode op.code ++ rm.imm16Bytes imm) := by
  cases op <;> rfl

theorem encode_aluEvSIb (imm : Byte) :
    encode (aluEvSIb op rm imm) = 0x83 :: (rm.encode op.code ++ rm.imm8Bytes imm) := by
  cases op <;> rfl

end

/-! ### What the decoder reads, the encoder writes -/

/-- Whatever the parser accepts after the bytes `pre` is a well-formed instruction, and `pre` with the bytes the parser took
is its encoding. -/
def ReadsBack (pre : List Byte) (k : List Byte → Decoded) : Prop :=
  ∀ (bs : List Byte) (i : Instr) (rest : List Byte), k bs = .ok (i, rest) → i.wf = true ∧ pre ++ bs = encode i ++ rest

namespace ReadsBack

theorem ok {pre : List Byte} {i : Instr} (hw : i.wf = true) (he : encode i = pre) :
    ReadsBack pre fun bs => .ok (i, bs) := by
  intro bs i' rest h
  cases h
  exact ⟨hw, by rw [he]⟩

theorem badSelector {pre : List Byte} (op : Byte) (reg : RegNum) (rm : RM) :
    ReadsBack pre fun _ => badSelector op reg rm :=
  fun _ _ _ h => absurd h badSelector_ne_ok

theorem withByte {pre : List Byte} {k : Byte → List Byte → Decoded} (hk : ∀ b, ReadsBack (pre ++ [b]) (k b)) :
    ReadsBack pre fun bs => withByte bs k := by
  intro bs i rest h
  obtain ⟨b, tail, rfl, h'⟩ := withByte_ok h
  simpa using hk b tail i rest h'

theorem withWord {pre : List Byte} {k : Word → List Byte → Decoded}
    (hk : ∀ v, ReadsBack (pre ++ [loByte v, hiByte v]) (k v)) : ReadsBack pre fun bs => withWord bs k := by
  intro bs i rest h
  obtain ⟨v, tail, rfl, h'⟩ := withWord_ok h
  simpa using hk v tail i rest h'

theorem withModRM {pre : List Byte} {k : RegNum → RM → List Byte → Decoded}
    (hk : ∀ reg rm, rm.wf = true → ReadsBack (pre ++ rm.encode reg) (k reg rm)) :
    ReadsBack pre fun bs => withModRM bs k := by
  intro bs i rest h
  obtain ⟨reg, rm, tail, hw, rfl, h'⟩ := withModRM_ok h
  simpa using hk reg rm hw tail i rest h'

theorem withImm8 {pre : List Byte} {rm : RM} {k : Byte → List Byte → Decoded} (hw : rm.wf = true)
    (hk : ∀ imm, rm.wfImm imm = true → ReadsBack (pre ++ rm.imm8Bytes imm) (k imm)) :
    ReadsBack pre fun bs => withImm8 rm bs k := by
  intro bs i rest h
  obtain ⟨imm, tail, himm, rfl, h'⟩ := withImm8_ok hw h
  simpa using hk imm himm tail i rest h'

theorem withImm16 {pre : List Byte} {rm : RM} {k : Word → List Byte → Decoded} (hw : rm.wf = true)
    (hk : ∀ imm, rm.wfImm imm = true → ReadsBack (pre ++ rm.imm16Bytes imm) (k imm)) :
    ReadsBack pre fun bs => withImm16 rm bs k := by
  intro bs i rest h
  obtain ⟨imm, tail, himm, rfl, h'⟩ := withImm16_ok hw h
  simpa using hk imm himm tail i rest h'

theorem decodeForm {op : Byte} {form : Form} (hf : formOf op = some form) :
    ReadsBack [op] fun bs => decodeForm op bs form := by
  cases form <;> dsimp only [Sys2Proof.decodeForm]
  case aluEbGb =>
    have hop := aluOpcode_regField op 0 0 (fixedBits_of_formOf hf (by decide))
    exact withModRM fun reg rm hw => ok (by rw [wf_aluEbGb, hw]) (by rw [encode_aluEbGb, hop]; rfl)
  case aluEvGv =>
    have hop := aluOpcode_regField op 0 1 (fixedBits_of_formOf hf (by decide))
    exact withModRM fun reg rm hw => ok (by rw [wf_aluEvGv, hw]) (by rw [encode_aluEvGv, hop]; rfl)
  case aluGbEb =>
    have hop := aluOpcode_regField op 1 0 (fixedBits_of_formOf hf (by decide))
    exact withModRM fun reg rm hw => ok (by rw [wf_aluGbEb, hw]) (by rw [encode_aluGbEb, hop]; rfl)
  case aluGvEv =>
    have hop := aluOpcode_regField op 1 1 (fixedBits_of_formOf hf (by decide))
    exact withModRM fun reg rm hw => ok (by rw [wf_aluGvEv, hw]) (by rw [encode_aluGvEv, hop]; rfl)
  case grp1EbIb =>
    obtain rfl : op = 0x80 := Machine.opcode_eq_of_formOf hf (by decide)
    exact withModRM fun k rm hw => withImm8 hw fun imm himm =>
      ok (by rw [wf_aluEbIb, himm]) (by rw [encode_aluEbIb, AluOp.code_ofCode]; rfl)
  case grp1EvIw =>
    obtain rfl : op = 0x81 := Machine.opcode_eq_of_formOf hf (by decide)
    exact withModRM fun k rm hw => withImm16 hw fun imm himm =>
      ok (by rw [wf_aluEvIw, himm]) (by rw [encode_aluEvIw, AluOp.code_ofCode]; rfl)
  case grp1EvSIb =>
    obtain rfl : op = 0x83 := Machine.opcode_eq_of_formOf hf (by decide)
    exact withModRM fun k rm hw => withImm8 hw fun imm himm =>
      ok (by rw [wf_aluEvSIb, himm]) (by rw [encode_aluEvSIb, AluOp.code_ofCode]; rfl)
  case incR16 | decR16 | pushR16 | popR16 =>
    exact ok rfl (congrArg (· :: []) (regOpcode_rmField (fixedBits_of_formOf hf (by decide))))
  case movR8Ib =>
    exact withByte fun imm => ok rfl (congrArg (· :: [imm]) (regOpcode_rmField (fixedBits_of_formOf hf (by decide))))
  case movR16Iw =>
    exact withWord fun imm =>
      ok rfl (congrArg (· :: [loByte imm, hiByte imm]) (regOpcode_rmField (fixedBits_of_formOf hf (by decide))))
  case xchgEbGb | movEbGb | movEvGv | movGbEb | movGvEv =>
    exact withModRM fun reg rm hw =>
      ok hw (congrArg (· :: rm.encode reg) (Machine.opcode_eq_of_formOf hf (by decide)).symm)
  case movEbIb =>
    obtain rfl : op = 0xC6 := Machine.opcode_eq_of_formOf hf (by decide)
    refine withModRM fun reg rm hw => ?_
    split
    · next h0 => exact withImm8 hw fun imm himm => ok himm (by rw [h0]; rfl)
    · exact badSelector _ _ _
  case movEvIw =>
    obtain rfl : op = 0xC7 := Machine.opcode_eq_of_formOf hf (by decide)
    refine withModRM fun reg rm hw => ?_
    split
    · next h0 => exact withImm16 hw fun imm himm => ok himm (by rw [h0]; rfl)
    · exact badSelector _ _ _
  case grp2Eb =>
    obtain rfl : op = 0xFE := Machine.opcode_eq_of_formOf hf (by decide)
    refine withModRM fun reg rm hw => ?_
    split
    · next h0 => exact ok hw (by rw [h0]; rfl)
    · split
      · next h1 => exact ok hw (by rw [h1]; rfl)
      · exact badSelector _ _ _
  case jb | jz | jnz | jbe | ja | jns | jmp =>
    exact withByte fun rel => ok rfl (congrArg (· :: [rel]) (Machine.opcode_eq_of_formOf hf (by decide)).symm)
  case call =>
    exact withWord fun rel =>
      ok rfl (congrArg (· :: [loByte rel, hiByte rel]) (Machine.opcode_eq_of_formOf hf (by decide)).symm)
  case nop | xchgAxCx | xchgAxDx | xchgAxBx | xchgAxSp | xchgAxBp | xchgAxSi | xchgAxDi | ret | hlt | stc =>
    exact ok rfl (congrArg (· :: []) (Machine.opcode_eq_of_formOf hf (by decide)).symm)

theorem decode : ReadsBack [] decode := by
  intro bs i rest h
  cases bs with
  | nil => cases h
  | cons op bs =>
    cases hf : formOf op with
    | some form =>
      rw [decode_cons hf] at h
      exact decodeForm hf bs i rest h
    | none => simp [Sys2Proof.decode, hf] at h

end ReadsBack

/-- Settles O2, by the handler of each instruction's opcode and the parsers on what the encoder wrote. -/
theorem decodeInvertsEncode : Obligations.DecodeInvertsEncode :=
  fun _ rest h => decode_encode rest h

/-- Settles O3: the bytes each handler takes are those the encoder writes. -/
theorem encodeInvertsDecode : Obligations.EncodeInvertsDecode :=
  ReadsBack.decode

end Sys2Proof

/-! PROOFS. The length of an instruction from its opcode and ModR/M byte (30_encoding.md R71), and the bytes that are no
opcode (R70). -/

namespace Sys2Proof

open Sys2Proof.Spec

/-! ### The ModR/M byte in the spec's numbers -/

/-- A ModR/M byte as a number (30_encoding.md R63). -/
theorem modRM_toNat : ∀ (mode : BitVec 2) (reg rm : BitVec 3),
    (mode ++ reg ++ rm : Byte).toNat = 64 * mode.toNat + 8 * reg.toNat + rm.toNat := by
  decide

/-- The spec's list of legal (mode, rm) pairs is the resolver's (30_encoding.md R64). -/
theorem legalModRM_iff_definedMode : ∀ m : Byte, legalModRM m ↔ definedMode (modeField m) (rmField m) = true := by
  unfold legalModRM
  decide

/-- The ModR/M byte of a well-formed operand is legal unless the operand is an undefined one. -/
theorem legalModRM_modRMByte {rm : RM} (reg : RegNum) (hw : rm.wf = true) :
    legalModRM (rm.modRMByte reg) ↔ rm.isUndefined = false := by
  rw [legalModRM_iff_definedMode, RM.modRMByte, modeField_append, rmField_append]
  cases rm with
  | undefined mode r => simpa [RM.wf, RM.isUndefined, RM.modeBits, RM.rmBits] using hw
  | _ => simp [definedMode, RM.isUndefined, RM.modeBits, RM.rmBits]

/-- `disp_len` counts the displacement bytes of a defined operand (30_encoding.md R65, R71). -/
theorem dispLen_modRMByte {rm : RM} (reg : RegNum) (hu : rm.isUndefined = false) :
    dispLen (rm.modRMByte reg) = rm.dispBytes.length := by
  have hmode : (rm.modRMByte reg).toNat / 64 = rm.modeBits.toNat := by
    rw [RM.modRMByte, modRM_toNat]
    omega
  have hrm : (rm.modRMByte reg).toNat % 8 = rm.rmBits.toNat := by
    rw [RM.modRMByte, modRM_toNat]
    omega
  rw [dispLen, hmode, hrm]
  cases rm with
  | undefined => cases hu
  | _ => simp [RM.modeBits, RM.rmBits, RM.dispBytes]

/-! ### The bytes after the opcode, by handler -/

/-- The handler reads a ModR/M byte. -/
def Form.hasModRM : Form → Bool
  | .aluEbGb | .aluEvGv | .aluGbEb | .aluGvEv | .grp1EbIb | .grp1EvIw | .grp1EvSIb | .xchgEbGb | .movEbGb | .movEvGv
  | .movGbEb | .movGvEv | .movEbIb | .movEvIw | .grp2Eb => true
  | .incR16 | .decR16 | .pushR16 | .popR16 | .jb | .jz | .jnz | .jbe | .ja | .jns | .nop | .xchgAxCx | .xchgAxDx
  | .xchgAxBx | .xchgAxSp | .xchgAxBp | .xchgAxSi | .xchgAxDi | .movR8Ib | .movR16Iw | .ret | .call | .jmp | .hlt
  | .stc => false

/-- The number of immediate bytes the handler reads after a defined operand, a relative target among them. -/
def Form.immLen : Form → Nat
  | .grp1EbIb | .grp1EvSIb | .movEbIb | .movR8Ib | .jb | .jz | .jnz | .jbe | .ja | .jns | .jmp => 1
  | .grp1EvIw | .movEvIw | .movR16Iw | .call => 2
  | .aluEbGb | .aluEvGv | .aluGbEb | .aluGvEv | .xchgEbGb | .movEbGb | .movEvGv | .movGbEb | .movGvEv | .grp2Eb
  | .incR16 | .decR16 | .pushR16 | .popR16 | .nop | .xchgAxCx | .xchgAxDx | .xchgAxBx | .xchgAxSp | .xchgAxBp
  | .xchgAxSi | .xchgAxDi | .ret | .hlt | .stc => 0

/-- `has_modrm` and `imm_len` of an opcode are those of its handler (30_encoding.md R71). -/
theorem opcode_shape : ∀ op : Byte,
    hasModRM op = ((formOf op).map Form.hasModRM).getD false ∧ immLen op = ((formOf op).map Form.immLen).getD 0 := by
  decide

theorem hasModRM_of_formOf {op : Byte} {form : Form} (hf : formOf op = some form) : hasModRM op = form.hasModRM := by
  rw [(opcode_shape op).1, hf, Option.map_some, Option.getD_some]

theorem immLen_of_formOf {op : Byte} {form : Form} (hf : formOf op = some form) : immLen op = form.immLen := by
  rw [(opcode_shape op).2, hf, Option.map_some, Option.getD_some]

/-- Every opcode that has a ModR/M byte has a handler, which reads it. -/
theorem exists_form_of_hasModRM {op : Byte} (h : hasModRM op = true) :
    ∃ form, formOf op = some form ∧ form.hasModRM = true := by
  cases hf : formOf op with
  | some form => exact ⟨form, rfl, (hasModRM_of_formOf hf).symm.trans h⟩
  | none =>
    rw [(opcode_shape op).1, hf] at h
    cases h

/-! ### The bytes that decoding takes -/

/-- What the decoder accepts from `bs` has taken `n` bytes. -/
def Takes (n : Nat) (bs : List Byte) (d : Decoded) : Prop :=
  ∀ (i : Instr) (rest : List Byte), d = .ok (i, rest) → bs.length = n + rest.length

namespace Takes

theorem ok {bs : List Byte} (i : Instr) : Takes 0 bs (.ok (i, bs)) := by
  intro i' rest h
  cases h
  exact (Nat.zero_add _).symm

theorem badSelector {n : Nat} {bs : List Byte} (op : Byte) (reg : RegNum) (rm : RM) :
    Takes n bs (badSelector op reg rm) :=
  fun _ _ h => absurd h badSelector_ne_ok

theorem withByte {n : Nat} {bs : List Byte} {k : Byte → List Byte → Decoded} (hk : ∀ b tail, Takes n tail (k b tail)) :
    Takes (n + 1) bs (withByte bs k) := by
  intro i rest h
  obtain ⟨b, tail, rfl, h'⟩ := withByte_ok h
  have hlen := hk b tail i rest h'
  rw [List.length_cons]
  omega

theorem withWord {n : Nat} {bs : List Byte} {k : Word → List Byte → Decoded} (hk : ∀ v tail, Takes n tail (k v tail)) :
    Takes (n + 2) bs (withWord bs k) :=
  withByte fun _ _ => withByte fun _ _ => hk _ _

theorem withImm8 {n : Nat} {rm : RM} {bs : List Byte} {k : Byte → List Byte → Decoded} (hu : rm.isUndefined = false)
    (hk : ∀ imm tail, Takes n tail (k imm tail)) : Takes (n + 1) bs (withImm8 rm bs k) := by
  rw [Sys2Proof.withImm8, hu]
  exact withByte hk

theorem withImm16 {n : Nat} {rm : RM} {bs : List Byte} {k : Word → List Byte → Decoded} (hu : rm.isUndefined = false)
    (hk : ∀ imm tail, Takes n tail (k imm tail)) : Takes (n + 2) bs (withImm16 rm bs k) := by
  rw [Sys2Proof.withImm16, hu]
  exact withWord hk

/-- A legal ModR/M byte is followed by the displacement bytes of its operand, and the operand is a defined one. -/
theorem withModRM {n : Nat} {m : Byte} {bs : List Byte} {k : RegNum → RM → List Byte → Decoded} (hm : legalModRM m)
    (hk : ∀ reg rm tail, rm.isUndefined = false → Takes n tail (k reg rm tail)) :
    Takes (1 + dispLen m + n) (m :: bs) (withModRM (m :: bs) k) := by
  intro i rest h
  obtain ⟨reg, rm, tail, hw, heq, h'⟩ := withModRM_ok h
  obtain ⟨rfl, rfl⟩ : m = rm.modRMByte reg ∧ bs = rm.dispBytes ++ tail := List.cons.inj heq
  have hu := (legalModRM_modRMByte reg hw).1 hm
  have hlen := hk reg rm tail hu i rest h'
  rw [List.length_cons, List.length_append, dispLen_modRMByte reg hu]
  omega

/-- A handler takes its ModR/M byte with the displacement, and its immediate. -/
theorem decodeForm {op m : Byte} {form : Form} (bs : List Byte) (hm : form.hasModRM = true → legalModRM m) :
    Takes ((if form.hasModRM then 1 + dispLen m else 0) + form.immLen) (m :: bs) (decodeForm op (m :: bs) form) := by
  cases form <;> dsimp only [Sys2Proof.decodeForm, Form.hasModRM, Form.immLen]
  case aluEbGb | aluEvGv | aluGbEb | aluGvEv | xchgEbGb | movEbGb | movEvGv | movGbEb | movGvEv =>
    exact withModRM (hm rfl) fun _ _ _ _ => ok _
  case grp1EbIb | grp1EvSIb => exact withModRM (hm rfl) fun _ _ _ hu => withImm8 hu fun _ _ => ok _
  case grp1EvIw => exact withModRM (hm rfl) fun _ _ _ hu => withImm16 hu fun _ _ => ok _
  case movEbIb =>
    refine withModRM (hm rfl) fun reg rm tail hu => ?_
    split
    · exact withImm8 hu fun _ _ => ok _
    · exact badSelector _ _ _
  case movEvIw =>
    refine withModRM (hm rfl) fun reg rm tail hu => ?_
    split
    · exact withImm16 hu fun _ _ => ok _
    · exact badSelector _ _ _
  case grp2Eb =>
    refine withModRM (hm rfl) fun reg rm tail hu => ?_
    split
    · exact ok _
    · split
      · exact ok _
      · exact badSelector _ _ _
  case jb | jz | jnz | jbe | ja | jns | jmp | movR8Ib => exact withByte fun _ _ => ok _
  case movR16Iw | call => exact withWord fun _ _ => ok _
  case incR16 | decR16 | pushR16 | popR16 | nop | xchgAxCx | xchgAxDx | xchgAxBx | xchgAxSp | xchgAxBp | xchgAxSi |
      xchgAxDi | ret | hlt | stc =>
    exact ok _

end Takes

/-- Decoding takes `length(op, m)` bytes (30_encoding.md R71). -/
theorem decode_takes_instrLength {op m : Byte} {bs rest : List Byte} {i : Instr}
    (h : decode (op :: m :: bs) = .ok (i, rest)) (hm : hasModRM op = true → legalModRM m) :
    (op :: m :: bs).length = instrLength op m + rest.length := by
  cases hf : formOf op with
  | none => simp [decode, hf] at h
  | some form =>
    rw [decode_cons hf] at h
    rw [hasModRM_of_formOf hf] at hm
    have hlen := Takes.decodeForm bs hm i rest h
    rw [instrLength, hasModRM_of_formOf hf, immLen_of_formOf hf, List.length_cons]
    omega

/-! ### The formula, by opcode range -/

theorem dispLen_le (m : Byte) : dispLen m ≤ 2 := by
  dsimp only [dispLen]
  split_ifs <;> omega

theorem immLen_le (op : Byte) : immLen op ≤ 2 := by
  unfold immLen
  split_ifs <;> omega

/-- The summands of `length(op, m)` in the opcode ranges that 30_encoding.md R71 lists. -/
theorem opcode_ranges : ∀ op : Byte,
    ((between op 0x40 0x5F || between op 0x90 0x97 || [0xC3, 0xF4, 0xF9].contains op) = true →
      hasModRM op = false ∧ immLen op = 0) ∧
    ((between op 0xB0 0xB7 || [0x72, 0x74, 0x75, 0x76, 0x77, 0x79, 0xEB].contains op) = true →
      hasModRM op = false ∧ immLen op = 1) ∧
    ((between op 0xB8 0xBF || [0xE8].contains op) = true → hasModRM op = false ∧ immLen op = 2) := by
  decide

theorem instrLength_of_noModRM {op : Byte} {n : Nat} (m : Byte) (h : hasModRM op = false ∧ immLen op = n) :
    instrLength op m = 1 + n := by
  obtain ⟨hmodrm, himm⟩ := h
  rw [instrLength, hmodrm, himm]
  rfl

/-- Settles O4: each handler takes the bytes the formula counts, and the formula has the listed values. -/
theorem instructionLengthFormula : Obligations.InstructionLengthFormula := by
  refine ⟨fun op m bs i rest h hm => decode_takes_instrLength h hm, fun op m _ => ?bounds, fun op m => ?ranges⟩
  case bounds =>
    have hdisp := dispLen_le m
    have himm := immLen_le op
    unfold instrLength
    split <;> omega
  case ranges =>
    obtain ⟨h1, h2, h3⟩ := opcode_ranges op
    refine ⟨fun h => instrLength_of_noModRM m (h1 h), fun h => instrLength_of_noModRM m (h2 h),
      fun h => instrLength_of_noModRM m (h3 h), fun h => ?_⟩
    rw [instrLength, if_pos h]
    omega

/-! ### The unsupported opcodes -/

/-- The list of 30_encoding.md R70 point 1 is all bytes in rising order without those that have a handler. -/
theorem unsupportedOpcodes_eq_filter :
    unsupportedOpcodes = ((List.finRange 256).map BitVec.ofFin).filter fun op => (formOf op).isNone := by
  decide +kernel

theorem mem_unsupportedOpcodes (op : Byte) : op ∈ unsupportedOpcodes ↔ formOf op = none := by
  rw [unsupportedOpcodes_eq_filter, List.mem_filter, Option.isNone_iff_eq_none, and_iff_right]
  exact List.mem_map.2 ⟨op.toFin, List.mem_finRange _, rfl⟩

theorem unsupportedOpcodes_nodup : unsupportedOpcodes.Nodup := by
  rw [unsupportedOpcodes_eq_filter]
  exact ((List.nodup_finRange 256).map fun _ _ => BitVec.ofFin.inj).filter _

/-- Settles O5: a handler never answers "unsupported opcode", which is legal only for a byte without a handler. -/
theorem unsupportedOpcodeBytes : Obligations.UnsupportedOpcodeBytes := by
  refine ⟨fun op bs => ?_, rfl, unsupportedOpcodes_nodup⟩
  rw [mem_unsupportedOpcodes]
  constructor
  · intro h
    have hlegal := Machine.LegallyDecoded.decode (p := .default) (op :: bs)
    rw [h] at hlegal
    exact eq_of_beq hlegal
  · intro hf
    rw [decode, hf]

end Sys2Proof

/-! PROOFS. Words that the spec writes out (95_test_vectors.md), and the operand resolver's table (30_encoding.md R65). -/

namespace Sys2Proof

open Sys2Proof.Machine

/-- Settles O1, by running the decoder on each word. -/
theorem wordsDecodeAsTheSpecWritesThem : Obligations.WordsDecodeAsTheSpecWritesThem :=
  ⟨rfl, rfl, rfl, rfl, rfl, rfl, rfl, rfl, rfl, rfl, rfl, rfl, rfl, rfl, rfl, rfl, rfl, rfl, rfl, rfl, rfl, rfl, rfl⟩

/-- The ModR/M byte of an operand as a number (30_encoding.md R63). -/
theorem modRMByte_eq (rm : RM) (reg : RegNum) :
    rm.modRMByte reg = BitVec.ofNat 8 (64 * rm.modeBits.toNat + 8 * reg.toNat + rm.rmBits.toNat) := by
  rw [← modRM_toNat, BitVec.ofNat_toNat, BitVec.setWidth_eq, RM.modRMByte]

/-- `cat` as 00_scope.md R8 words it. -/
theorem cat_eq (h l : Byte) : cat h l = BitVec.ofNat 16 (256 * h.toNat + l.toNat) := by
  rw [Nat.add_comm, ← cat_toNat, BitVec.ofNat_toNat, BitVec.setWidth_eq]

theorem sext16_toNat (b : Byte) : (sext16 b).toNat = if b.toNat < 128 then b.toNat else b.toNat + 0xFF00 := by
  have hb := b.isLt
  rw [sext16_eq, BitVec.toNat_ofNat, Nat.mod_eq_of_lt]
  split <;> omega

/-- MOV r16, r/m16 with its ModR/M byte as a number (30_encoding.md R63, R65). -/
theorem decode_movGvEv {rm : RM} (reg : RegNum) (rest : List Byte) (hw : rm.wf = true) :
    decode (0x8B :: BitVec.ofNat 8 (64 * rm.modeBits.toNat + 8 * reg.toNat + rm.rmBits.toNat) :: (rm.dispBytes ++ rest)) =
      .ok (.movGvEv reg rm, rest) := by
  rw [← modRMByte_eq]
  exact decode_encode (i := .movGvEv reg rm) rest hw

/-- The same for an operand with a disp16, whose two bytes are given (30_encoding.md R62). -/
theorem decode_movGvEv_disp16 {rm : RM} (reg : RegNum) {lo hi : Byte} (rest : List Byte) (hw : rm.wf = true)
    (hd : rm.dispBytes = [loByte (cat hi lo), hiByte (cat hi lo)]) :
    decode (0x8B :: BitVec.ofNat 8 (64 * rm.modeBits.toNat + 8 * reg.toNat + rm.rmBits.toNat) :: lo :: hi :: rest) =
      .ok (.movGvEv reg rm, rest) := by
  rw [loByte_cat, hiByte_cat] at hd
  rw [← decode_movGvEv reg rest hw, hd]
  rfl

/-- Settles O6: each row of the table is an operand with its own mode, rm and displacement bytes. -/
theorem operandResolverTable : Obligations.OperandResolverTable := by
  intro s reg r lo hi rest
  dsimp only
  rw [← cat_eq, ← sext16_toNat, ← regOffset_eq]
  refine ⟨⟨decode_movGvEv (rm := .reg r) reg rest rfl, rfl⟩,
    ⟨decode_movGvEv (rm := .bxDi) reg rest rfl, _, rfl, BitVec.toNat_add _ _⟩,
    ⟨decode_movGvEv_disp16 (rm := .direct (cat hi lo)) reg rest rfl rfl, rfl⟩,
    ⟨decode_movGvEv (rm := .bx) reg rest rfl, rfl⟩,
    ⟨decode_movGvEv (rm := .bpDiDisp lo) reg rest rfl, _, rfl, ?_⟩,
    ⟨decode_movGvEv_disp16 (rm := .diDisp (cat hi lo)) reg rest rfl rfl, _, rfl, BitVec.toNat_add _ _⟩,
    ⟨decode_movGvEv_disp16 (rm := .bxDisp (cat hi lo)) reg rest rfl rfl, _, rfl, BitVec.toNat_add _ _⟩⟩
  rw [BitVec.toNat_add, BitVec.toNat_add, Nat.mod_add_mod]

end Sys2Proof

/-! PROOFS. The step on what the decoder answers (30_encoding.md R78): the decoded instruction, an undefined addressing mode
(R64) and a sub-selector that selects nothing (R72). -/

namespace Sys2Proof

open Sys2Proof.Spec

/-! ### The ModR/M byte among fetched bytes -/

/-- Every byte, followed by at least two others, begins the encoding of a well-formed operand, defined or not. -/
theorem exists_operand (m a b : Byte) (tail : List Byte) :
    ∃ (rm : RM) (rest : List Byte), rm.wf = true ∧ rm.modRMByte (regField m) = m ∧
      m :: a :: b :: tail = rm.encode (regField m) ++ rest := by
  have hparse : ∃ p, withModRM (m :: a :: b :: tail) (fun _ _ rest => .ok (.nop, rest)) = .ok p := by
    rw [withModRM, withByte_cons]
    dsimp only
    split <;> exact ⟨_, rfl⟩
  obtain ⟨p, hp⟩ := hparse
  obtain ⟨reg, rm, rest, hw, heq, -⟩ := withModRM_ok hp
  have hm : m = rm.modRMByte reg := (List.cons.inj heq).1
  have hreg : regField m = reg := by rw [hm, RM.modRMByte, regField_append]
  rw [hreg]
  exact ⟨rm, rest, hw, hm.symm, heq⟩

/-- What the decoder owes to an undefined operand with ModR/M byte `m`: the instruction that has it, or the resolver's own
abort where the sub-selector selects no instruction (60_exceptions.md R217). -/
def AbortsOn (m : Byte) : Decoded → Prop
  | .ok (i, _) => ∃ reg rm, i.modRM = some (reg, rm) ∧ rm.isUndefined = true ∧ rm.modRMByte reg = m
  | .error e => e = .badAddressingMode m

namespace AbortsOn

section
variable {rm : RM} (hu : rm.isUndefined = true)
include hu

theorem ok {i : Instr} {reg : RegNum} (rest : List Byte) (hi : i.modRM = some (reg, rm)) :
    AbortsOn (rm.modRMByte reg) (.ok (i, rest)) :=
  ⟨reg, rm, hi, hu, rfl⟩

theorem badSelector (op : Byte) (reg : RegNum) : AbortsOn (rm.modRMByte reg) (badSelector op reg rm) := by
  rw [Sys2Proof.badSelector, if_pos hu]
  rfl

theorem withImm8 {m : Byte} {bs : List Byte} {k : Byte → List Byte → Decoded} (hk : AbortsOn m (k 0 bs)) :
    AbortsOn m (withImm8 rm bs k) := by
  rwa [Sys2Proof.withImm8, if_pos hu]

theorem withImm16 {m : Byte} {bs : List Byte} {k : Word → List Byte → Decoded} (hk : AbortsOn m (k 0 bs)) :
    AbortsOn m (withImm16 rm bs k) := by
  rwa [Sys2Proof.withImm16, if_pos hu]

theorem decodeForm (op : Byte) {form : Form} (reg : RegNum) (rest : List Byte) (hform : form.hasModRM = true)
    (hw : rm.wf = true) : AbortsOn (rm.modRMByte reg) (decodeForm op (rm.encode reg ++ rest) form) := by
  cases form
  case incR16 | decR16 | pushR16 | popR16 | jb | jz | jnz | jbe | ja | jns | nop | xchgAxCx | xchgAxDx | xchgAxBx |
      xchgAxSp | xchgAxBp | xchgAxSi | xchgAxDi | movR8Ib | movR16Iw | ret | call | jmp | hlt | stc =>
    cases hform
  all_goals rw [Sys2Proof.decodeForm, withModRM_encode _ _ _ _ hw]
  case aluEbGb => exact ok hu _ (Machine.modRM_aluEbGb _ _ _)
  case aluEvGv => exact ok hu _ (Machine.modRM_aluEvGv _ _ _)
  case aluGbEb => exact ok hu _ (Machine.modRM_aluGbEb _ _ _)
  case aluGvEv => exact ok hu _ (Machine.modRM_aluGvEv _ _ _)
  case grp1EbIb => exact withImm8 hu (ok hu _ (by rw [Machine.modRM_aluEbIb, AluOp.code_ofCode]))
  case grp1EvIw => exact withImm16 hu (ok hu _ (by rw [Machine.modRM_aluEvIw, AluOp.code_ofCode]))
  case grp1EvSIb => exact withImm8 hu (ok hu _ (by rw [Machine.modRM_aluEvSIb, AluOp.code_ofCode]))
  case xchgEbGb | movEbGb | movEvGv | movGbEb | movGvEv => exact ok hu _ rfl
  case movEbIb =>
    split
    · next h0 => exact withImm8 hu (ok hu _ (by rw [h0]; rfl))
    · exact badSelector hu _ _
  case movEvIw =>
    split
    · next h0 => exact withImm16 hu (ok hu _ (by rw [h0]; rfl))
    · exact badSelector hu _ _
  case grp2Eb =>
    split
    · next h0 => exact ok hu _ (by rw [h0]; rfl)
    · split
      · next h1 => exact ok hu _ (by rw [h1]; rfl)
      · exact badSelector hu _ _

end

end AbortsOn

/-! ### The sub-selectors that select nothing -/

theorem regField_toNat : ∀ m : Byte, (regField m).toNat = m.toNat / 8 % 8 := by
  decide

theorem regField_eq_ofNat (m : Byte) : regField m = BitVec.ofNat 3 (m.toNat / 8) :=
  BitVec.eq_of_toNat_eq (by rw [regField_toNat, BitVec.toNat_ofNat])

/-- FE, C6 and C7 reject a bad sub-selector after a defined operand by name (30_encoding.md R72). -/
theorem decode_badSelector {op m : Byte} {rm : RM} (rest : List Byte) (hsel : badSelectorOf op m) (hw : rm.wf = true)
    (hu : rm.isUndefined = false) :
    decode (op :: (rm.encode (regField m) ++ rest)) = .error (.badSubOpcode op (regField m)) := by
  have hne (c : RegNum) (hc : c.toNat < m.toNat / 8 % 8) : regField m ≠ c := by
    rintro rfl
    exact Nat.lt_irrefl _ (regField_toNat m ▸ hc)
  have hbad : badSelector op (regField m) rm = .error (.badSubOpcode op (regField m)) := by
    rw [badSelector, hu]
    rfl
  rcases hsel with ⟨rfl, hreg⟩ | ⟨rfl | rfl, hreg⟩
  · rw [decode_cons (form := .grp2Eb) rfl, decodeForm, withModRM_encode _ _ _ _ hw,
      if_neg (hne 0 (Nat.lt_of_lt_of_le Nat.zero_lt_two hreg)), if_neg (hne 1 hreg), hbad]
  · rw [decode_cons (form := .movEbIb) rfl, decodeForm, withModRM_encode _ _ _ _ hw, if_neg (hne 0 hreg), hbad]
  · rw [decode_cons (form := .movEvIw) rfl, decodeForm, withModRM_encode _ _ _ _ hw, if_neg (hne 0 hreg), hbad]

end Sys2Proof

namespace Sys2Proof.Machine

open Sys2Proof.Spec

/-! ### The step -/

/-- Settles O7: the step is `exec` in the state past the fetched bytes, which is `setIp`. -/
theorem stepRunsTheDecodedInstruction : Obligations.StepRunsTheDecodedInstruction :=
  fun _ _ _ hrun hd => step_of_decode hrun hd

/-- Raising an abort changes no data. -/
theorem endsAborted_raise (s : State) (info : AbortInfo) : EndsAborted info s (.next (s.raise (.aborted info))) :=
  ⟨_, rfl, s.raise_status _, ⟨s.regByte_raise _, s.readByte_raise _, s.raise_flags _⟩, s.raise_params _⟩

/-- An instruction with a ModR/M byte runs the resolver on its operand before anything else (30_encoding.md R64). -/
theorem exec_eq_withOperand {i : Instr} {reg : RegNum} {rm : RM} (hi : i.modRM = some (reg, rm)) (s : State) :
    ∃ k, exec i s = withOperand reg rm s k := by
  cases i
  case incR16 | decR16 | pushR16 | popR16 | movR8Ib | movR16Iw | xchgAxCx | xchgAxDx | xchgAxBx | xchgAxSp | xchgAxBp |
      xchgAxSi | xchgAxDi | jbRel8 | jzRel8 | jnzRel8 | jbeRel8 | jaRel8 | jnsRel8 | jmpRel8 | callRel16 | ret | nop |
      stc | hlt =>
    cases hi
  all_goals
    cases hi
    exact ⟨_, rfl⟩

/-- Settles O12: the resolver's abort comes before the instruction's own effect. -/
theorem undefinedOperandAborts : Obligations.UndefinedOperandAborts := by
  intro i reg rm s hi hu
  obtain ⟨k, hk⟩ := exec_eq_withOperand hi s
  rw [hk, withOperand_undefined reg s k hu]
  exact endsAborted_raise s _

/-- What the decoder owes to an undefined operand is what makes the step abort (60_exceptions.md R212). -/
theorem step_of_abortsOn {s : State} {m : Byte} (hrun : s.status = .running) (h : AbortsOn m (decode s.fetchWindow)) :
    EndsAborted (.badAddressingMode m) s (step s) := by
  cases hd : decode s.fetchWindow with
  | ok p =>
    obtain ⟨i, rest⟩ := p
    rw [hd] at h
    obtain ⟨reg, rm, hi, hu, rfl⟩ := h
    rw [step_of_decode hrun hd]
    exact undefinedOperandAborts i reg rm (s.pastFetched rest) hi hu
  | error e =>
    rw [hd] at h
    obtain rfl : e = .badAddressingMode m := h
    rw [step_of_error hrun hd]
    exact endsAborted_raise s _

/-- The fetch window is the opcode and, where an operand follows it, the encoding of a well-formed one. -/
theorem State.fetchWindow_eq_operand (s : State) :
    ∃ (rm : RM) (rest : List Byte), rm.wf = true ∧
      rm.modRMByte (regField (s.readByte (s.ip + 1))) = s.readByte (s.ip + 1) ∧
      s.fetchWindow = s.readByte s.ip :: (rm.encode (regField (s.readByte (s.ip + 1))) ++ rest) := by
  obtain ⟨rm, rest, hw, hm, heq⟩ := exists_operand (s.readByte (s.ip + 1)) (s.readByte (s.ip + 2))
    (s.readByte (s.ip + 3)) [s.readByte (s.ip + 4), s.readByte (s.ip + 5)]
  exact ⟨rm, rest, hw, hm, congrArg (s.readByte s.ip :: ·) heq⟩

/-- Settles O10: whatever the handler, it answers an instruction with the undefined operand or the resolver's abort. -/
theorem undefinedAddressingModeStopsTheStep : Obligations.UndefinedAddressingModeStopsTheStep := by
  intro s hrun hop hillegal
  obtain ⟨rm, rest, hw, hm, hwin⟩ := s.fetchWindow_eq_operand
  obtain ⟨form, hf, hform⟩ := exists_form_of_hasModRM hop
  have hu : rm.isUndefined = true := by
    rw [← hm, legalModRM_modRMByte _ hw] at hillegal
    simpa using hillegal
  have haborts := AbortsOn.decodeForm hu (s.readByte s.ip) (regField (s.readByte (s.ip + 1))) rest hform hw
  rw [hm, ← decode_cons hf, ← hwin] at haborts
  exact step_of_abortsOn hrun haborts

/-- Settles O11: with a defined operand the decoder gets as far as the sub-selector, and rejects it. -/
theorem badSubSelectorStopsTheStep : Obligations.BadSubSelectorStopsTheStep := by
  intro s hrun hsel hlegal
  obtain ⟨rm, rest, hw, hm, hwin⟩ := s.fetchWindow_eq_operand
  have hu : rm.isUndefined = false := by
    rwa [← hm, legalModRM_modRMByte _ hw] at hlegal
  have hd := decode_badSelector rest hsel hw hu
  rw [← hwin] at hd
  rw [step_of_error hrun hd, ← regField_eq_ofNat]
  exact endsAborted_raise s _

end Sys2Proof.Machine

/-! PROOFS. The ALU function in numbers (40_alu.md R101, R102, R107, R120), at every width. -/

namespace Sys2Proof.Machine

open Sys2Proof.Spec

/-! ### The wrapped result -/

theorem natCast_toNat_add {w : Nat} (a b : BitVec w) : ((a + b).toNat : Int) = (a.toNat + b.toNat : Int) % 2 ^ w := by
  rw [BitVec.toNat_add]
  push_cast
  rfl

theorem natCast_toNat_sub {w : Nat} (a b : BitVec w) : ((a - b).toNat : Int) = (a.toNat - b.toNat : Int) % 2 ^ w := by
  have hb := b.isLt
  have hcast : ((2 ^ w - b.toNat + a.toNat : Nat) : Int) = a.toNat - b.toNat + (2 ^ w : Nat) := by omega
  rw [BitVec.toNat_sub, Int.natCast_emod, hcast, Int.add_emod_right]
  push_cast
  rfl

/-- The carry-in as a word is its number, wrapped (at width 0 the word 1 is 0). -/
theorem natCast_toNat_carry {w : Nat} (cin : Bool) :
    ((if cin then 1 else 0 : BitVec w).toNat : Int) = (cin.toNat : Int) % 2 ^ w := by
  cases cin <;> simp

/-- The result before write-back is the spec's wrapped number, operation by operation (40_alu.md R101). -/
theorem natCast_toNat_aluResult {w : Nat} (k : AluOp) (a b : BitVec w) (cin : Bool) :
    ((aluResult k a b cin).toNat : Int) = aluNumber k w a.toNat b.toNat cin.toNat := by
  cases k <;> dsimp only [aluResult, aluNumber]
  case add => exact natCast_toNat_add a b
  case sub | cmp => exact natCast_toNat_sub a b
  case adc => rw [natCast_toNat_add, natCast_toNat_add, natCast_toNat_carry, Int.emod_add_emod, Int.add_emod_emod]
  case sbb => rw [natCast_toNat_sub, natCast_toNat_sub, natCast_toNat_carry, Int.emod_sub_emod, Int.sub_emod_emod]
  case or => rw [BitVec.toNat_or]
  case and => rw [BitVec.toNat_and]
  case xor => rw [BitVec.toNat_xor]

/-! ### What is written back, and the flags -/

theorem aluCarry_eq {w : Nat} (k : AluOp) (a r : BitVec w) : aluCarry k a r = aluNumberCarry k a.toNat r.toNat := by
  cases k <;> simp [aluCarry, aluNumberCarry, BitVec.lt_def]

/-- ZF and SF of a result in numbers. -/
theorem resultFlags_eq {w : Nat} (r : BitVec w) (c : Bool) :
    resultFlags r c = ⟨c, decide ((r.toNat : Int) = 0), decide ((2 : Int) ^ (w - 1) ≤ r.toNat)⟩ := by
  have hz : (r == 0) = decide ((r.toNat : Int) = 0) := by
    rw [beq_eq_decide]
    exact decide_eq_decide.2 (by simp [BitVec.toNat_eq])
  have hs : r.msb = decide ((2 : Int) ^ (w - 1) ≤ r.toNat) := by
    rw [BitVec.msb_eq_decide]
    exact_mod_cast rfl
  rw [resultFlags, hz, hs]

theorem alu_out {w : Nat} (k : AluOp) (a b : BitVec w) (cin : Bool) :
    ((alu k a b cin).out.toNat : Int) =
      if k = .cmp then (a.toNat : Int) else aluNumber k w a.toNat b.toNat cin.toNat := by
  rw [← natCast_toNat_aluResult, ← apply_ite (fun v : BitVec w => (v.toNat : Int))]
  rfl

theorem alu_flags {w : Nat} (k : AluOp) (a b : BitVec w) (cin : Bool) :
    (alu k a b cin).flags =
      ⟨aluNumberCarry k a.toNat (aluNumber k w a.toNat b.toNat cin.toNat),
        decide (aluNumber k w a.toNat b.toNat cin.toNat = 0),
        decide ((2 : Int) ^ (w - 1) ≤ aluNumber k w a.toNat b.toNat cin.toNat)⟩ := by
  rw [← natCast_toNat_aluResult, ← aluCarry_eq]
  exact resultFlags_eq _ _

/-- Settles O27, at every width. -/
theorem aluFunctionByNumbers : Obligations.AluFunctionByNumbers := by
  intro w _ k a b cin
  dsimp only
  rw [alu_flags]
  exact ⟨alu_out k a b cin, rfl, rfl, rfl⟩

/-! ### The carry against the true result -/

/-- A number less than one modulus outside `0..M-1` wraps by adding or taking away `M` at most once. -/
theorem emod_cases {t M : Int} (hlo : -M ≤ t) (hhi : t < 2 * M) :
    (0 ≤ t ∧ t < M ∧ t % M = t) ∨ (M ≤ t ∧ t % M = t - M) ∨ (t < 0 ∧ t % M = t + M) := by
  rcases lt_or_ge t 0 with hneg | hnonneg
  · exact .inr (.inr ⟨hneg, by rw [← Int.add_emod_right, Int.emod_eq_of_lt] <;> omega⟩)
  · rcases lt_or_ge t M with hlt | hge
    · exact .inl ⟨hnonneg, hlt, Int.emod_eq_of_lt hnonneg hlt⟩
    · exact .inr (.inl ⟨hge, by rw [← Int.sub_emod_right, Int.emod_eq_of_lt] <;> omega⟩)

/-- The arithmetic operations wrap their true result (40_alu.md R107). -/
theorem aluNumber_of_trueResult {k : AluOp} {a b cin : Nat} {t : Int} (w : Nat) (h : trueResult k a b cin = some t) :
    aluNumber k w a b cin = t % 2 ^ w := by
  cases k <;> cases h <;> rfl

/-- Carry or borrow of the true result `t` of `a` and an addend in `0..M-1`, by comparing the wrapped result with `a`. -/
theorem emod_lt_iff_carry {a d M : Int} (ha : 0 ≤ a ∧ a < M) (hd : 0 ≤ d ∧ d < M) :
    (a + d) % M < a ↔ M ≤ a + d ∨ a + d < 0 := by
  rcases emod_cases (t := a + d) (M := M) (by omega) (by omega) with h | h | h <;> omega

theorem lt_emod_iff_borrow {a d M : Int} (ha : 0 ≤ a ∧ a < M) (hd : 0 ≤ d ∧ d < M) :
    a < (a - d) % M ↔ M ≤ a - d ∨ a - d < 0 := by
  rcases emod_cases (t := a - d) (M := M) (by omega) (by omega) with h | h | h <;> omega

theorem natCast_toNat_mem_range {w : Nat} (a : BitVec w) : 0 ≤ (a.toNat : Int) ∧ (a.toNat : Int) < 2 ^ w :=
  ⟨Int.natCast_nonneg _, by exact_mod_cast a.isLt⟩

/-- CF is the true carry or borrow wherever the addend fits the width (40_alu.md R107, points 1 and 2). -/
theorem alu_cf_iff {w : Nat} {k : AluOp} {a b : BitVec w} {cin : Bool} {t : Int}
    (ht : trueResult k a.toNat b.toNat cin.toNat = some t)
    (hfit : k = .add ∨ k = .sub ∨ k = .cmp ∨ b.toNat + cin.toNat < 2 ^ w) :
    (alu k a b cin).flags.cf = true ↔ 2 ^ w ≤ t ∨ t < 0 := by
  have ha := natCast_toNat_mem_range a
  have hb := natCast_toNat_mem_range b
  have hsum (h : b.toNat + cin.toNat < 2 ^ w) : 0 ≤ (b.toNat + cin.toNat : Int) ∧ (b.toNat + cin.toNat : Int) < 2 ^ w :=
    ⟨by omega, by exact_mod_cast h⟩
  rw [alu_flags, aluNumber_of_trueResult w ht]
  cases k <;> cases ht
  case add => simpa [aluNumberCarry] using emod_lt_iff_carry ha hb
  case sub | cmp => simpa [aluNumberCarry] using lt_emod_iff_borrow ha hb
  case adc =>
    simpa [aluNumberCarry, Int.add_assoc] using emod_lt_iff_carry ha (hsum (by simpa using hfit))
  case sbb =>
    simpa [aluNumberCarry, Int.sub_sub] using lt_emod_iff_borrow ha (hsum (by simpa using hfit))

/-- The quirk of ADC and SBB: with an addend of `2^W` the first operand comes back, and no carry is seen (40_alu.md R107,
point 3). -/
theorem alu_of_addend_eq_modulus {w : Nat} {k : AluOp} {a b : BitVec w} {cin : Bool} (hk : k = .adc ∨ k = .sbb)
    (hsum : b.toNat + cin.toNat = 2 ^ w) : (alu k a b cin).out = a ∧ (alu k a b cin).flags.cf = false := by
  obtain ⟨hnonneg, hlt⟩ := natCast_toNat_mem_range a
  have hsum' : (b.toNat + cin.toNat : Int) = 2 ^ w := by exact_mod_cast hsum
  have hr : aluNumber k w a.toNat b.toNat cin.toNat = a.toNat := by
    rcases hk with rfl | rfl
    · rw [aluNumber, Int.add_assoc, hsum', Int.add_emod_right, Int.emod_eq_of_lt hnonneg hlt]
    · rw [aluNumber, Int.sub_sub, hsum', Int.sub_emod_right, Int.emod_eq_of_lt hnonneg hlt]
  have hout := alu_out k a b cin
  rw [alu_flags, hr]
  rw [hr, ite_self, Int.natCast_inj] at hout
  refine ⟨BitVec.eq_of_toNat_eq hout, ?_⟩
  rcases hk with rfl | rfl <;> simp [aluNumberCarry]

/-- With an addend of at least `2^W` the true result of ADC and SBB is outside `0..2^W-1`. -/
theorem trueResult_outside {k : AluOp} {M a b cin : Nat} {t : Int} (hk : k = .adc ∨ k = .sbb) (ha : a < M)
    (hsum : b + cin = M) (ht : trueResult k a b cin = some t) : (M : Int) ≤ t ∨ t < 0 := by
  rcases hk with rfl | rfl <;> cases ht <;> omega

/-- Settles O28, at every width; `2^W - 1` is the largest addend that fits the width. -/
theorem carryIsTrueCarryButForTheQuirk : Obligations.CarryIsTrueCarryButForTheQuirk := by
  intro w _ k a b cin t ht
  have hpos : 0 < 2 ^ w := Nat.two_pow_pos w
  refine ⟨fun hfit => alu_cf_iff ht (by rwa [Nat.le_sub_one_iff_lt hpos] at hfit), fun hk hb hcin => ?_⟩
  have hsum : b.toNat + cin.toNat = 2 ^ w := by rw [hb, hcin, Bool.toNat_true, Nat.sub_add_cancel hpos]
  obtain ⟨hout, hcf⟩ := alu_of_addend_eq_modulus (a := a) hk hsum
  exact ⟨hout, hcf, by exact_mod_cast trueResult_outside hk a.isLt hsum ht⟩

/-! ### The laws of the source -/

theorem alu_logic_cf {w : Nat} {k : AluOp} (hk : k = .and ∨ k = .or ∨ k = .xor) (a b : BitVec w) (cin : Bool) :
    (alu k a b cin).flags.cf = false := by
  rcases hk with rfl | rfl | rfl <;> rfl

/-- Settles O29: the laws of `BitVec` for the results, and R101's comparison of `v + 0` with `v` for the carry. -/
theorem aluArithmeticLaws : Obligations.AluArithmeticLaws := by
  refine ⟨fun v c => ⟨BitVec.add_zero v, ?_⟩, fun k hk a b x y c => ⟨alu_logic_cf hk a b c, alu_logic_cf hk x y c⟩,
    fun v1 v2 _ _ => BitVec.sub_add_cancel v1 v2⟩
  have hr : aluResult .add v 0 c = v := BitVec.add_zero v
  show resultFlags (aluResult .add v 0 c) (decide (aluResult .add v 0 c < v)) = _
  rw [hr, decide_eq_false (BitVec.lt_irrefl v), resultFlags, BitVec.msb_eq_decide]
  rfl

end Sys2Proof.Machine

/-! PROOFS. The seven forms of the ALU group (40_alu.md R112 to R118): one lemma for a write through a reference with the
flags after it, and each form by its operation. -/

namespace Sys2Proof.Machine

open Sys2Proof.Spec

/-! ### The forms by their operation -/

/-- The eight operations in the order of their codes (40_alu.md R100). -/
def aluOps : List AluOp := [.add, .or, .adc, .sbb, .and, .sub, .xor, .cmp]

/-- A list of forms that runs through the operations holds only what its family gives for the operation. -/
theorem eq_of_mem_aluOps_map {α : Type} {f : AluOp → α} {k : AluOp} {i : α}
    (h : (k, i) ∈ aluOps.map fun op => (op, f op)) : i = f k := by
  obtain ⟨op, -, heq⟩ := List.mem_map.1 h
  cases heq
  rfl

theorem exec_aluEbGb (k : AluOp) (dst : RM) (src : RegNum) : exec (aluEbGb k dst src) = aluRm8Reg k dst src := by
  cases k <;> rfl

theorem exec_aluEvGv (k : AluOp) (dst : RM) (src : RegNum) : exec (aluEvGv k dst src) = aluRm16Reg k dst src := by
  cases k <;> rfl

theorem exec_aluGbEb (k : AluOp) (dst : RegNum) (src : RM) : exec (aluGbEb k dst src) = aluReg8Rm k dst src := by
  cases k <;> rfl

theorem exec_aluGvEv (k : AluOp) (dst : RegNum) (src : RM) : exec (aluGvEv k dst src) = aluReg16Rm k dst src := by
  cases k <;> rfl

theorem exec_aluEbIb (k : AluOp) (dst : RM) (imm : Byte) : exec (aluEbIb k dst imm) = aluRm8Imm k dst imm := by
  cases k <;> rfl

theorem exec_aluEvIw (k : AluOp) (dst : RM) (imm : Word) : exec (aluEvIw k dst imm) = aluRm16Imm k dst imm := by
  cases k <;> rfl

theorem exec_aluEvSIb (k : AluOp) (dst : RM) (imm : Byte) :
    exec (aluEvSIb k dst imm) = aluRm16Imm k dst (sext16 imm) := by
  cases k <;> rfl

/-! ### The opcode and the immediate as the spec writes them -/

theorem aluCode_eq (k : AluOp) : aluCode k = k.code := by
  cases k <;> rfl

/-- The opcode of a register form as a number: operation times 8, direction times 2, width (30_encoding.md R67). -/
theorem aluOpcode_eq (k : AluOp) (d w : BitVec 1) :
    aluOpcode k d w = BitVec.ofNat 8 (8 * (aluCode k).toNat + (2 * d.toNat + w.toNat)) := by
  revert d w
  cases k <;> decide

theorem imm8Bytes_of_defined {rm : RM} (h : rm.isUndefined = false) (imm : Byte) : rm.imm8Bytes imm = [imm] := by
  simp [RM.imm8Bytes, h]

theorem imm16Bytes_of_defined {rm : RM} (h : rm.isUndefined = false) (imm : Word) :
    rm.imm16Bytes imm = [loByte imm, hiByte imm] := by
  simp [RM.imm16Bytes, h]

/-! ### A write through a reference, then the flags -/

theorem writeRef8_setFlags_effect (s : State) (ref : Ref) (v : Byte) (f : Flags) :
    ((s.writeRef8 ref v).setFlags f).readRef8 ref = v ∧ ((s.writeRef8 ref v).setFlags f).flags = f ∧
      ((s.writeRef8 ref v).setFlags f).ip = s.ip ∧
      Frame s ((s.writeRef8 ref v).setFlags f) ref.regBytes8 ref.memBytes8 :=
  ⟨by simp, rfl, by simp, (Frame.writeRef8 s ref v).setFlags f⟩

theorem writeRef16_setFlags_effect (s : State) (ref : Ref) (v : Word) (f : Flags) :
    ((s.writeRef16 ref v).setFlags f).readRef16 ref = v ∧ ((s.writeRef16 ref v).setFlags f).flags = f ∧
      ((s.writeRef16 ref v).setFlags f).ip = s.ip ∧
      Frame s ((s.writeRef16 ref v).setFlags f) ref.regBytes16 ref.memBytes16 :=
  ⟨by simp, rfl, by simp, (Frame.writeRef16 s ref v).setFlags f⟩

/-! ### The forms with a register operand -/

/-- Settles O30: the destination is the operand's own reference. -/
theorem aluRm8RegEffect : Obligations.AluRm8RegEffect := by
  intro k i hi dst src s
  obtain rfl : i = aluEbGb k := eq_of_mem_aluOps_map hi
  refine ⟨fun ref href => ?effect, undefinedOperandAborts _ src dst s (modRM_aluEbGb k dst src), ?encoding⟩
  case effect =>
    rw [exec_aluEbGb]
    exact ⟨_, withOperand_some src _ href, writeRef8_setFlags_effect s ref _ _⟩
  case encoding => rw [encode_aluEbGb, aluOpcode_eq]; rfl

/-- Settles O31: as at 8 bits, with the two bytes of the reference. -/
theorem aluRm16RegEffect : Obligations.AluRm16RegEffect := by
  intro k i hi dst src s
  obtain rfl : i = aluEvGv k := eq_of_mem_aluOps_map hi
  refine ⟨fun ref href => ?effect, undefinedOperandAborts _ src dst s (modRM_aluEvGv k dst src), ?encoding⟩
  case effect =>
    rw [exec_aluEvGv]
    exact ⟨_, withOperand_some src _ href, writeRef16_setFlags_effect s ref _ _⟩
  case encoding => rw [encode_aluEvGv, aluOpcode_eq]; rfl

/-- Settles O32: the destination is the reference to the byte of register `dst`, whatever the operand is. -/
theorem aluReg8RmEffect : Obligations.AluReg8RmEffect := by
  intro k i hi dst src s
  obtain rfl : i = aluGbEb k := eq_of_mem_aluOps_map hi
  refine ⟨fun ref href => ?effect, undefinedOperandAborts _ dst src s (modRM_aluGbEb k src dst), ?encoding⟩
  case effect =>
    rw [exec_aluGbEb]
    exact ⟨_, withOperand_some dst _ href, writeRef8_setFlags_effect s (.reg (regOffset dst)) _ _⟩
  case encoding => rw [encode_aluGbEb, aluOpcode_eq]; rfl

/-- Settles O33: the destination is the reference to register `dst`, whatever the operand is. -/
theorem aluReg16RmEffect : Obligations.AluReg16RmEffect := by
  intro k i hi dst src s
  obtain rfl : i = aluGvEv k := eq_of_mem_aluOps_map hi
  refine ⟨fun ref href => ?effect, undefinedOperandAborts _ dst src s (modRM_aluGvEv k src dst), ?encoding⟩
  case effect =>
    rw [exec_aluGvEv]
    exact ⟨_, withOperand_some dst _ href, writeRef16_setFlags_effect s (.reg (regOffset dst)) _ _⟩
  case encoding => rw [encode_aluGvEv, aluOpcode_eq]; rfl

/-! ### The forms with an immediate: `reg` holds the operation's code -/

/-- Settles O34: a defined operand is followed by its immediate byte. -/
theorem aluRm8ImmEffect : Obligations.AluRm8ImmEffect := by
  intro k i hi dst imm s
  obtain rfl : i = aluEbIb k := eq_of_mem_aluOps_map hi
  rw [aluCode_eq]
  refine ⟨fun ref href => ?effect, undefinedOperandAborts _ k.code dst s (modRM_aluEbIb k dst imm), fun hd => ?encoding⟩
  case effect =>
    rw [exec_aluEbIb]
    exact ⟨_, withOperand_some k.code _ href, writeRef8_setFlags_effect s ref _ _⟩
  case encoding => rw [encode_aluEbIb, imm8Bytes_of_defined hd]

/-- Settles O35: a defined operand is followed by the two bytes of its immediate, the low one first. -/
theorem aluRm16ImmEffect : Obligations.AluRm16ImmEffect := by
  intro k i hi dst imm s
  obtain rfl : i = aluEvIw k := eq_of_mem_aluOps_map hi
  rw [aluCode_eq]
  refine ⟨fun ref href => ?effect, undefinedOperandAborts _ k.code dst s (modRM_aluEvIw k dst imm), fun hd => ?encoding⟩
  case effect =>
    rw [exec_aluEvIw]
    exact ⟨_, withOperand_some k.code _ href, writeRef16_setFlags_effect s ref _ _⟩
  case encoding => rw [encode_aluEvIw, imm16Bytes_of_defined hd]

/-- Settles O36, with the spec's `sext_16` written as the model's. -/
theorem aluRm16SignedImmEffect : Obligations.AluRm16SignedImmEffect := by
  intro k i hi dst imm s
  obtain rfl : i = aluEvSIb k := eq_of_mem_aluOps_map hi
  rw [aluCode_eq, ← sext16_eq]
  refine ⟨fun ref href => ?effect, undefinedOperandAborts _ k.code dst s (modRM_aluEvSIb k dst imm), fun hd => ?encoding⟩
  case effect =>
    rw [exec_aluEvSIb]
    exact ⟨_, withOperand_some k.code _ href, writeRef16_setFlags_effect s ref _ _⟩
  case encoding => rw [encode_aluEvSIb, imm8Bytes_of_defined hd]

end Sys2Proof.Machine

/-! PROOFS. How an instruction's own run can end (60_exceptions.md R210; the Exceptions entries of 40 to 45). -/

namespace Sys2Proof.Machine

open Sys2Proof.Spec

/-- The resolver's abort is named by the rule of every instruction that has an operand to resolve. -/
theorem ending_of_modRM {i : Instr} {reg : RegNum} {rm : RM} (hi : i.modRM = some (reg, rm)) :
    ending i = .runningOrBadMode := by
  cases i
  case incR16 | decR16 | pushR16 | popR16 | movR8Ib | movR16Iw | xchgAxCx | xchgAxDx | xchgAxBx | xchgAxSp | xchgAxBp |
      xchgAxSi | xchgAxDi | jbRel8 | jzRel8 | jnzRel8 | jbeRel8 | jaRel8 | jnsRel8 | jmpRel8 | callRel16 | ret | nop |
      stc | hlt =>
    cases hi
  all_goals rfl

theorem eq_hlt_of_ending {i : Instr} (h : ending i = .halted) : i = .hlt := by
  cases i
  case hlt => rfl
  all_goals cases h

/-- Only a rule that ends in the halt rules out an instruction that stays `Running`. -/
theorem ending_allows_running {e : Ending} (h : e ≠ .halted) : e.allows .running := by
  cases e with
  | running => exact rfl
  | runningOrBadMode | runningOrStackFault => exact .inl rfl
  | halted => exact absurd rfl h

/-- HLT raises its condition in every state, so it never completes otherwise (45_misc.md R202). -/
theorem status_of_exec_hlt {s t : State} (h : exec .hlt s = .next t) : t.status = .halted := by
  cases h
  exact s.raise_status _

/-- What an instruction other than HLT can do from a Running state is among the endings of its rule. -/
theorem Outcomes.ending_allows {i : Instr} {s t : State} (h : Outcomes i s t) (hrun : s.status = .running)
    (hne : ending i ≠ .halted) : (ending i).allows t.status := by
  cases h with
  | completes h =>
    obtain ⟨hstatus, -⟩ := h
    rw [hstatus, hrun]
    exact ending_allows_running hne
  | badMode reg rm hi =>
    rw [ending_of_modRM hi, State.raise_status]
    exact .inr ⟨_, rfl⟩
  | stackFault hi =>
    rw [State.raise_status]
    rcases hi with ⟨r, rfl⟩ | ⟨r, rfl⟩ | ⟨rel, rfl⟩ | rfl <;> exact .inr rfl
  | halts hi => exact absurd (congrArg ending hi) hne

/-- Settles O23: HLT by itself, every other instruction by what it can do. -/
theorem instructionsEndOnlyAsTheirRulesSay : Obligations.InstructionsEndOnlyAsTheirRulesSay := by
  intro i s t hrun h
  by_cases hhlt : ending i = .halted
  · obtain rfl := eq_hlt_of_ending hhlt
    exact status_of_exec_hlt h
  · obtain ⟨u, hu, hout⟩ := exec_cases i s
    cases h.symm.trans hu
    exact hout.ending_allows hrun hhlt

end Sys2Proof.Machine

/-! PROOFS. MOV (41_move_exchange.md R130 to R137): one lemma for a write through a reference, which each form makes once. -/

namespace Sys2Proof

/-- An opcode with a register number in `op[2:0]`, as a number (30_encoding.md R67). -/
theorem regOpcode_eq : ∀ (high : BitVec 5) (r : RegNum), regOpcode high r = BitVec.ofNat 8 (8 * high.toNat + r.toNat) := by
  decide

end Sys2Proof

namespace Sys2Proof.Machine

theorem writeRef8_effect (s : State) (ref : Ref) (v : Byte) :
    (s.writeRef8 ref v).readRef8 ref = v ∧ (s.writeRef8 ref v).flags = s.flags ∧ (s.writeRef8 ref v).ip = s.ip ∧
      Frame s (s.writeRef8 ref v) ref.regBytes8 ref.memBytes8 :=
  ⟨s.readRef8_writeRef8 ref v, s.writeRef8_flags ref v, s.writeRef8_ip ref v, Frame.writeRef8 s ref v⟩

theorem writeRef16_effect (s : State) (ref : Ref) (v : Word) :
    (s.writeRef16 ref v).readRef16 ref = v ∧ (s.writeRef16 ref v).flags = s.flags ∧ (s.writeRef16 ref v).ip = s.ip ∧
      Frame s (s.writeRef16 ref v) ref.regBytes16 ref.memBytes16 :=
  ⟨s.readRef16_writeRef16 ref v, s.writeRef16_flags ref v, s.writeRef16_ip ref v, Frame.writeRef16 s ref v⟩

/-- A register is written as the operand that refers to it. -/
theorem setReg8_effect (s : State) (r : RegNum) (v : Byte) :
    (s.setReg8 r v).reg8 r = v ∧ (s.setReg8 r v).flags = s.flags ∧ (s.setReg8 r v).ip = s.ip ∧
      Frame s (s.setReg8 r v) (regBytes8 r) [] :=
  writeRef8_effect s (.reg (regOffset r)) v

theorem setReg16_effect (s : State) (r : RegNum) (v : Word) :
    (s.setReg16 r v).reg16 r = v ∧ (s.setReg16 r v).flags = s.flags ∧ (s.setReg16 r v).ip = s.ip ∧
      Frame s (s.setReg16 r v) (regBytes16 r) [] :=
  writeRef16_effect s (.reg (regOffset r)) v

/-- Settles O44: the one write is to the operand's own reference. -/
theorem movRmRegEffect : Obligations.MovRmRegEffect := by
  intro dst src s
  refine ⟨fun ref href => ⟨?byte, ?word⟩, fun hu => ⟨?byteAborts, ?wordAborts⟩, rfl, rfl⟩
  case byte => exact ⟨_, withOperand_some src _ href, writeRef8_effect s ref _⟩
  case word => exact ⟨_, withOperand_some src _ href, writeRef16_effect s ref _⟩
  case byteAborts => exact undefinedOperandAborts (.movEbGb dst src) src dst s rfl hu
  case wordAborts => exact undefinedOperandAborts (.movEvGv dst src) src dst s rfl hu

/-- Settles O45: the one write is to the register, whatever the operand is. -/
theorem movRegRmEffect : Obligations.MovRegRmEffect := by
  intro dst src s
  refine ⟨fun ref href => ⟨?byte, ?word⟩, fun hu => ⟨?byteAborts, ?wordAborts⟩, rfl, rfl⟩
  case byte => exact ⟨_, withOperand_some dst _ href, setReg8_effect s dst _⟩
  case word => exact ⟨_, withOperand_some dst _ href, setReg16_effect s dst _⟩
  case byteAborts => exact undefinedOperandAborts (.movGbEb dst src) dst src s rfl hu
  case wordAborts => exact undefinedOperandAborts (.movGvEv dst src) dst src s rfl hu

/-- Settles O46, the opcodes being `regOpcode` of 10110 and 10111. -/
theorem movRegImmEffect : Obligations.MovRegImmEffect := by
  intro r b v s
  refine ⟨⟨_, rfl, setReg8_effect s r b⟩, ⟨_, rfl, setReg16_effect s r v⟩, ?byteEncoding, ?wordEncoding⟩
  case byteEncoding => exact congrArg (· :: [b]) (regOpcode_eq 0b10110 r)
  case wordEncoding => exact congrArg (· :: [loByte v, hiByte v]) (regOpcode_eq 0b10111 r)

/-- Settles O47: as O44 with the immediate written, and a defined operand followed by it. -/
theorem movRmImmEffect : Obligations.MovRmImmEffect := by
  intro dst b v s
  refine ⟨fun ref href => ⟨?byte, ?word⟩, fun hu => ⟨?byteAborts, ?wordAborts⟩, fun hd => ⟨?byteEncoding, ?wordEncoding⟩⟩
  case byte => exact ⟨_, withOperand_some 0 _ href, writeRef8_effect s ref b⟩
  case word => exact ⟨_, withOperand_some 0 _ href, writeRef16_effect s ref v⟩
  case byteAborts => exact undefinedOperandAborts (.movEbIb dst b) 0 dst s rfl hu
  case wordAborts => exact undefinedOperandAborts (.movEvIw dst v) 0 dst s rfl hu
  case byteEncoding => rw [encode, imm8Bytes_of_defined hd]
  case wordEncoding => rw [encode, imm16Bytes_of_defined hd]

end Sys2Proof.Machine

/-! PROOFS. XCHG (41_move_exchange.md R138, R139): two writes, of which the second leaves the first as it is or, where both
are of one register, writes the same value again. -/

namespace Sys2Proof.Machine

open Sys2Proof.Spec

theorem State.readRef8_setReg8 (s : State) (r : RegNum) (v : Byte) (ref : Ref) :
    (s.setReg8 r v).readRef8 ref = if ref = .reg (regOffset r) then v else s.readRef8 ref := by
  cases ref with
  | reg o => simpa [State.readRef8] using s.regByte_setReg8 r o v
  | mem a => simp [State.readRef8]

/-- Writing a register's own byte to it changes no data. -/
theorem SameData.setReg8 {s : State} {r : RegNum} {v : Byte} (hv : v = s.reg8 r) : SameData s (s.setReg8 r v) := by
  refine ⟨fun o => ?_, fun _ => rfl, rfl⟩
  rw [State.regByte_setReg8]
  split
  · next ho => rw [hv, ho]; rfl
  · rfl

theorem SameData.trans {s t u : State} (h : SameData s t) (h' : SameData t u) : SameData s u := by
  obtain ⟨hregs, hmem, hflags⟩ := h
  obtain ⟨hregs', hmem', hflags'⟩ := h'
  exact ⟨fun o => (hregs' o).trans (hregs o), fun a => (hmem' a).trans (hmem a), hflags'.trans hflags⟩

/-- The operand reads as the register did, also where the operand is the register (41_move_exchange.md R138). -/
theorem readRef8_exchanged (s : State) (ref : Ref) (r : RegNum) :
    ((s.writeRef8 ref (s.reg8 r)).setReg8 r (s.readRef8 ref)).readRef8 ref = s.reg8 r := by
  rw [State.readRef8_setReg8]
  split
  · next href => rw [href]; rfl
  · exact s.readRef8_writeRef8 ref _

/-- Settles O48: the exchange of a register with itself writes its own byte twice. -/
theorem xchgRm8RegEffect : Obligations.XchgRm8RegEffect := by
  intro dst src s
  refine ⟨fun ref href => ?effect, fun hsame => ?oneRegister, undefinedOperandAborts _ src dst s rfl, rfl⟩
  case effect =>
    obtain ⟨-, hflags, hip, hframe⟩ := writeRef8_effect s ref (s.reg8 src)
    obtain ⟨hreg, hflags', hip', hframe'⟩ := setReg8_effect (s.writeRef8 ref (s.reg8 src)) src (s.readRef8 ref)
    have hboth := hframe.trans hframe'
    rw [List.append_nil] at hboth
    exact ⟨_, withOperand_some src _ href, readRef8_exchanged s ref src, hreg, hflags'.trans hflags, hip'.trans hip, hboth⟩
  case oneRegister =>
    subst hsame
    obtain ⟨hreg, -⟩ := setReg8_effect s src (s.reg8 src)
    exact ⟨_, rfl, (SameData.setReg8 rfl).trans (SameData.setReg8 hreg.symm)⟩

/-- A row of the XCHG AX forms holds the instruction of its register, with opcode 90 plus its number. -/
theorem xchgAxForms_rows {i : Instr} {r : RegNum} (h : (i, r) ∈ xchgAxForms) :
    exec i = xchgAx r ∧ encode i = [BitVec.ofNat 8 (0x90 + r.toNat)] := by
  simp only [xchgAxForms, List.mem_cons, List.not_mem_nil, or_false, Prod.mk.injEq] at h
  rcases h with ⟨rfl, rfl⟩ | ⟨rfl, rfl⟩ | ⟨rfl, rfl⟩ | ⟨rfl, rfl⟩ | ⟨rfl, rfl⟩ | ⟨rfl, rfl⟩ | ⟨rfl, rfl⟩ <;>
    exact ⟨rfl, rfl⟩

/-- Of the two writes the second leaves AX, unless it is AX that it writes with its own value. -/
theorem reg16_ax_exchanged (s : State) (r : RegNum) :
    ((s.setReg16 .ax (s.reg16 r)).setReg16 r (s.reg16 .ax)).reg16 .ax = s.reg16 r := by
  rw [State.reg16_setReg16]
  split
  · next hr => rw [← hr]
  · rw [State.reg16_setReg16, if_pos rfl]

/-- Settles O49: every row of the forms is the exchange of AX with the row's register. -/
theorem xchgAxRegEffect : Obligations.XchgAxRegEffect := by
  intro i r hi s
  obtain ⟨hexec, hencode⟩ := xchgAxForms_rows hi
  rw [hexec]
  obtain ⟨-, -, -, hframe⟩ := setReg16_effect s .ax (s.reg16 r)
  obtain ⟨hreg, -, -, hframe'⟩ := setReg16_effect (s.setReg16 .ax (s.reg16 r)) r (s.reg16 .ax)
  exact ⟨⟨_, rfl, reg16_ax_exchanged s r, hreg, rfl, rfl, hframe.trans hframe'⟩, hencode⟩

end Sys2Proof.Machine

/-! PROOFS. INC and DEC (42_incdec.md R150 to R154): the function in numbers at every width, the effect at both widths, and
the round trip. -/

namespace Sys2Proof.Machine

open Sys2Proof.Spec

/-! ### Increment and decrement in numbers -/

theorem incDec_out_toNat {w : Nat} (hw : 0 < w) (dec : Bool) (a : BitVec w) (p : Config.Params) (f : Flags) :
    (incDec dec a p f).out.toNat = incDecNumber dec w a.toNat := by
  have hone : 1 % 2 ^ w = 1 := Nat.one_mod_two_pow hw
  have hpos : 0 < 2 ^ w := Nat.two_pow_pos w
  cases dec with
  | false => simp [incDec, incDecNumber, hone]
  | true =>
    have hsum : 2 ^ w - 1 + a.toNat = a.toNat + 2 ^ w - 1 := by omega
    simp [incDec, incDecNumber, BitVec.toNat_sub, hone, hsum]

/-- An increment carries out of the greatest value only. -/
theorem succ_mod_lt_iff {a M : Nat} (ha : a < M) (hM : 1 < M) : (a + 1) % M < a ↔ a = M - 1 := by
  rcases Nat.lt_or_ge (a + 1) M with hlt | hge
  · rw [Nat.mod_eq_of_lt hlt]
    omega
  · obtain rfl : M = a + 1 := by omega
    rw [Nat.mod_self]
    omega

/-- A decrement borrows from 0 only. -/
theorem lt_pred_mod_iff {a M : Nat} (ha : a < M) (hM : 1 < M) : a < (a + M - 1) % M ↔ a = 0 := by
  rcases Nat.eq_zero_or_pos a with rfl | hpos
  · rw [Nat.mod_eq_of_lt] <;> omega
  · have hsum : a + M - 1 = a - 1 + M := by omega
    rw [hsum, Nat.add_mod_right, Nat.mod_eq_of_lt] <;> omega

/-- The carry that the ADD or SUB of 1 would write is the boundary the spec names (42_incdec.md R150). -/
theorem incDec_carry {w : Nat} (hw : 0 < w) (dec : Bool) (a : BitVec w) (p : Config.Params) (f : Flags) :
    (if dec then decide (a < (incDec dec a p f).out) else decide ((incDec dec a p f).out < a)) =
      if dec then decide (a.toNat = 0) else decide (a.toNat = 2 ^ w - 1) := by
  have hM : 1 < 2 ^ w := Nat.one_lt_two_pow hw.ne'
  simp only [BitVec.lt_def, incDec_out_toNat hw]
  cases dec with
  | false => exact decide_eq_decide.2 (succ_mod_lt_iff a.isLt hM)
  | true => exact decide_eq_decide.2 (lt_pred_mod_iff a.isLt hM)

theorem incDec_flags {w : Nat} (hw : 0 < w) (dec : Bool) (a : BitVec w) (p : Config.Params) (f : Flags) :
    (incDec dec a p f).flags = incDecFlags dec w a.toNat p f := by
  have hflags := resultFlags_eq (incDec dec a p f).out (incDec dec a p f).flags.cf
  rw [incDecFlags, ← incDec_carry hw dec a p f, ← incDec_out_toNat hw dec a p f]
  exact_mod_cast hflags

/-! ### The instructions -/

theorem exec_incDecR16 (dec : Bool) (r : RegNum) : exec (if dec then .decR16 r else .incR16 r) = incDecReg16 dec r := by
  cases dec <;> rfl

theorem exec_incDecEb (dec : Bool) (dst : RM) :
    exec (if dec then .decEb dst else .incEb dst) = incDecRm8 dec (if dec then 1 else 0) dst := by
  cases dec <;> rfl

theorem modRM_incDecEb (dec : Bool) (dst : RM) :
    (if dec then Instr.decEb dst else .incEb dst).modRM = some (if dec then 1 else 0, dst) := by
  cases dec <;> rfl

/-- Settles O37: the register is written as the operand that refers to it. -/
theorem incDecReg16Effect : Obligations.IncDecReg16Effect := by
  intro dec r s
  refine ⟨?effect, ?encoding⟩
  case effect =>
    rw [exec_incDecR16, ← incDec_out_toNat (by decide) dec _ s.params s.flags, ← incDec_flags (by decide)]
    obtain ⟨hreg, heffect⟩ := writeRef16_setFlags_effect s (.reg (regOffset r)) _ _
    exact ⟨_, rfl, congrArg BitVec.toNat hreg, heffect⟩
  case encoding =>
    cases dec
    · exact congrArg (· :: []) (regOpcode_eq 0b01000 r)
    · exact congrArg (· :: []) (regOpcode_eq 0b01001 r)

/-- Settles O38: the destination is the operand's own reference. -/
theorem incDecRm8Effect : Obligations.IncDecRm8Effect := by
  intro dec dst s
  refine ⟨fun ref href => ?effect, undefinedOperandAborts _ _ dst s (modRM_incDecEb dec dst), ?encoding⟩
  case effect =>
    rw [exec_incDecEb, ← incDec_out_toNat (by decide) dec _ s.params s.flags, ← incDec_flags (by decide)]
    obtain ⟨hbyte, heffect⟩ := writeRef8_setFlags_effect s ref _ _
    exact ⟨_, withOperand_some _ _ href, congrArg BitVec.toNat hbyte, heffect⟩
  case encoding => cases dec <;> rfl

/-! ### The round trip -/

/-- The opposite operation gives the value back, at the boundaries too. -/
theorem incDec_not_incDec {w : Nat} (dec : Bool) (a : BitVec w) (p q : Config.Params) (f g : Flags) :
    (incDec (!dec) (incDec dec a p f).out q g).out = a := by
  cases dec with
  | false => exact BitVec.add_sub_cancel a 1
  | true => exact BitVec.sub_add_cancel a 1

/-- A register write commutes with a write of the flags. -/
theorem State.setReg16_setFlags (s : State) (r : RegNum) (v : Word) (f : Flags) :
    (s.setFlags f).setReg16 r v = (s.setReg16 r v).setFlags f := rfl

/-- A register written with its own value keeps both its bytes. -/
theorem State.regByte_setReg16_self (s : State) (r : RegNum) (o : RegOff) :
    (s.setReg16 r (s.reg16 r)).regByte o = s.regByte o := by
  rw [State.regByte_setReg16, State.reg16, State.regWord, hiByte_cat, loByte_cat]
  split
  · next hhi => rw [hhi]
  · split
    · next hlo => rw [hlo]
    · rfl

/-- An increment or decrement followed by the opposite one: of the two writes the second stands, and writes the old value. -/
theorem incDecReg16_roundTrip (dec : Bool) (r : RegNum) (s : State) :
    ∃ t u, incDecReg16 dec r s = .next t ∧ incDecReg16 (!dec) r t = .next u ∧
      (∀ o, u.regByte o = s.regByte o) ∧ ∀ a, u.readByte a = s.readByte a := by
  refine ⟨_, _, rfl, rfl, fun o => ?_, fun _ => rfl⟩
  rw [State.reg16_setFlags, State.reg16_setReg16, if_pos rfl, incDec_not_incDec, State.setReg16_setFlags,
    State.regByte_setFlags, State.regByte_setFlags, State.setReg16_setReg16, State.regByte_setReg16_self]

/-- Settles O39: each order is an operation followed by its opposite. -/
theorem incDecRoundTrip : Obligations.IncDecRoundTrip :=
  fun r s => ⟨incDecReg16_roundTrip false r s, incDecReg16_roundTrip true r s⟩

end Sys2Proof.Machine

/-! PROOFS. `P_INCDEC_CF` reaches nothing in a step but CF (42_incdec.md R150, D8): INC and DEC alone read it, and every
other operation commutes with setting it. -/

namespace Sys2Proof.Machine

/-- The state with another value of `P_INCDEC_CF`. -/
def State.withIncDecCf (s : State) (c : Config.IncDecCf) : State :=
  { s with params := { s.params with incDecCf := c } }

/-- Two states that differ at most in CF and in the model's own fields. -/
def SameButCarry (t t' : State) : Prop :=
  t'.mem = t.mem ∧ t'.rb = t.rb ∧ t'.ip = t.ip ∧ t'.status = t.status ∧ t'.flags.zf = t.flags.zf ∧
    t'.flags.sf = t.flags.sf

/-- Both outcomes are next states, the same but for CF. -/
def EndsSameButCarry (o o' : Outcome) : Prop :=
  ∃ t t', o = .next t ∧ o' = .next t' ∧ SameButCarry t t'

theorem SameButCarry.withIncDecCf (t : State) (c : Config.IncDecCf) : SameButCarry t (t.withIncDecCf c) :=
  ⟨rfl, rfl, rfl, rfl, rfl, rfl⟩

theorem State.raise_withIncDecCf (s : State) (c : Config.IncDecCf) (st : Status) :
    (s.withIncDecCf c).raise st = (s.raise st).withIncDecCf c := by
  cases st <;> rfl

theorem resolve_withIncDecCf (rm : RM) (s : State) (c : Config.IncDecCf) : resolve rm (s.withIncDecCf c) = resolve rm s := by
  cases rm <;> rfl

namespace EndsSameButCarry

variable {s : State} {c : Config.IncDecCf}

theorem next (t : State) : EndsSameButCarry (.next t) (.next (t.withIncDecCf c)) :=
  ⟨_, _, rfl, rfl, .withIncDecCf t c⟩

theorem raise (st : Status) : EndsSameButCarry (.next (s.raise st)) (.next ((s.withIncDecCf c).raise st)) := by
  rw [State.raise_withIncDecCf]
  exact next _

theorem operand {reg : RegNum} {rm : RM} {k k' : Ref → State} (hk : ∀ ref, SameButCarry (k ref) (k' ref)) :
    EndsSameButCarry (withOperand reg rm s k) (withOperand reg rm (s.withIncDecCf c) k') := by
  rcases withOperand_cases reg rm s k with ⟨ref, href, h⟩ | ⟨hu, h⟩
  · exact ⟨_, _, h, withOperand_some reg k' (by rwa [resolve_withIncDecCf]), hk ref⟩
  · rw [h, withOperand_undefined reg _ k' hu]
    exact raise _

/-- An operand form whose effect commutes with setting the parameter, on a register and on a memory operand. -/
theorem operand_of_commutes {reg : RegNum} {rm : RM} {k k' : Ref → State}
    (hreg : ∀ o, k' (.reg o) = (k (.reg o)).withIncDecCf c) (hmem : ∀ a, k' (.mem a) = (k (.mem a)).withIncDecCf c) :
    EndsSameButCarry (withOperand reg rm s k) (withOperand reg rm (s.withIncDecCf c) k') := by
  refine operand fun ref => ?_
  cases ref with
  | reg o => exact hreg o ▸ .withIncDecCf _ c
  | mem a => exact hmem a ▸ .withIncDecCf _ c

theorem push {v : Word} {k : State → State} (hk : ∀ u, k (u.withIncDecCf c) = (k u).withIncDecCf c) :
    EndsSameButCarry (withPush s v k) (withPush (s.withIncDecCf c) v k) := by
  have hfaults : (s.withIncDecCf c).pushFaults = s.pushFaults := rfl
  have hpush : (s.withIncDecCf c).push16 v = (s.push16 v).withIncDecCf c := rfl
  rw [withPush, withPush, hfaults, hpush, hk]
  split
  · exact raise _
  · exact next _

theorem pop {k : Word → State → State} (hk : ∀ v u, k v (u.withIncDecCf c) = (k v u).withIncDecCf c) :
    EndsSameButCarry (withPop s k) (withPop (s.withIncDecCf c) k) := by
  have hfaults : (s.withIncDecCf c).popFaults = s.popFaults := rfl
  have hpop : (s.withIncDecCf c).pop16 = (s.pop16.1, s.pop16.2.withIncDecCf c) := rfl
  rw [withPop, withPop, hfaults, hpop, hk]
  split
  · exact raise _
  · exact next _

theorem jump (taken : Bool) (rel : Byte) : EndsSameButCarry (jumpIf taken rel s) (jumpIf taken rel (s.withIncDecCf c)) := by
  cases taken <;> exact next _

/-- INC and DEC of a register: result, ZF and SF are computed without the parameter. -/
theorem incDecReg16 (dec : Bool) (r : RegNum) :
    EndsSameButCarry (incDecReg16 dec r s) (incDecReg16 dec r (s.withIncDecCf c)) :=
  ⟨_, _, rfl, rfl, rfl, rfl, rfl, rfl, rfl, rfl⟩

/-- INC and DEC of an r/m byte, likewise. -/
theorem incDecRm8 (dec : Bool) (reg : RegNum) (dst : RM) :
    EndsSameButCarry (incDecRm8 dec reg dst s) (incDecRm8 dec reg dst (s.withIncDecCf c)) := by
  refine operand fun ref => ?_
  cases ref with
  | reg o => exact ⟨rfl, rfl, rfl, rfl, rfl, rfl⟩
  | mem a => exact ⟨rfl, rfl, rfl, rfl, rfl, rfl⟩

theorem exec (i : Instr) : EndsSameButCarry (exec i s) (exec i (s.withIncDecCf c)) := by
  cases i
  case incR16 r => exact incDecReg16 false r
  case decR16 r => exact incDecReg16 true r
  case incEb dst => exact incDecRm8 false 0 dst
  case decEb dst => exact incDecRm8 true 1 dst
  case pushR16 r => exact push (k := id) fun _ => rfl
  case callRel16 rel => exact push (k := fun u => u.setIp (s.ip + rel)) fun _ => rfl
  case popR16 r => exact pop (k := fun v u => u.setReg16 r v) fun _ _ => rfl
  case ret => exact pop (k := fun v u => u.setIp v) fun _ _ => rfl
  case jbRel8 | jzRel8 | jnzRel8 | jbeRel8 | jaRel8 | jnsRel8 | jmpRel8 => exact jump _ _
  case movR8Ib | movR16Iw | xchgAxCx | xchgAxDx | xchgAxBx | xchgAxSp | xchgAxBp | xchgAxSi | xchgAxDi | nop | stc =>
    exact next _
  case hlt => exact raise .halted
  all_goals exact operand_of_commutes (fun _ => rfl) fun _ => rfl

theorem rejectFetched {e : DecodeError} (he : e ≠ .truncated) :
    EndsSameButCarry (s.rejectFetched e) ((s.withIncDecCf c).rejectFetched e) := by
  cases e with
  | unsupportedOpcode op => exact raise (s := s.setIp (s.ip + 1)) _
  | badAddressingMode m => exact raise _
  | badSubOpcode op reg => exact raise _
  | truncated => exact absurd rfl he

/-- The fetch reads memory and ip only, so both steps decode the same bytes. -/
theorem step : EndsSameButCarry (step s) (step (s.withIncDecCf c)) := by
  rcases step_cases s with ⟨hterm, h⟩ | ⟨i, rest, hrun, hd, h⟩ | ⟨e, hrun, hd, h⟩
  · rw [h, step_of_terminal (s := s.withIncDecCf c) hterm]
    exact next s
  · rw [h, step_of_decode (s := s.withIncDecCf c) hrun hd]
    exact exec (s := s.pastFetched rest) i
  · have he : e ≠ .truncated := fun he => s.decode_fetchWindow_ne_truncated (he ▸ hd)
    rw [h, step_of_error (s := s.withIncDecCf c) hrun hd]
    exact rejectFetched he

end EndsSameButCarry

/-- Settles O21: the two steps end in states that are the same but for CF. -/
theorem incDecParameterTouchesOnlyCarry : Obligations.IncDecParameterTouchesOnlyCarry := by
  intro s t c h
  obtain ⟨u, u', hu, hu', hsame⟩ := EndsSameButCarry.step (s := s) (c := c)
  cases h.symm.trans hu
  exact ⟨u', hu', hsame⟩

end Sys2Proof.Machine

/-! PROOFS. PUSH and POP (43_stack.md R160 to R168): when the check lets `push16` and `pop16` run, what the two leave, and
the round trip. -/

namespace Sys2Proof.Machine

open Sys2Proof.Spec

/-! ### The check -/

theorem State.pushFaults_eq_false_iff (s : State) : s.pushFaults = false ↔ pushAllowed s := by
  cases h : s.params.stackWrap <;> simp [State.pushFaults, pushAllowed, h]

theorem State.popFaults_eq_false_iff (s : State) : s.popFaults = false ↔ popAllowed s := by
  cases h : s.params.stackWrap <;> simp [State.popFaults, popAllowed, h]

theorem endsStackFault_raise (s : State) : EndsStackFault s (.next (s.raise .stackFault)) :=
  ⟨_, rfl, s.raise_status _, .raise s _, s.raise_params _⟩

theorem withPush_of_allowed {s : State} (v : Word) (k : State → State) (h : pushAllowed s) :
    withPush s v k = .next (k (s.push16 v)) := by
  rw [withPush, s.pushFaults_eq_false_iff.2 h, if_neg Bool.false_ne_true]

theorem withPush_of_not_allowed {s : State} (v : Word) (k : State → State) (h : ¬ pushAllowed s) :
    EndsStackFault s (withPush s v k) := by
  rcases withPush_cases s v k with ⟨hf, -⟩ | ⟨-, -, hraise⟩
  · exact absurd (s.pushFaults_eq_false_iff.1 hf) h
  · exact hraise ▸ endsStackFault_raise s

theorem withPop_of_allowed {s : State} (k : Word → State → State) (h : popAllowed s) :
    withPop s k = .next (k s.pop16.1 s.pop16.2) := by
  rw [withPop, s.popFaults_eq_false_iff.2 h, if_neg Bool.false_ne_true]

theorem withPop_of_not_allowed {s : State} (k : Word → State → State) (h : ¬ popAllowed s) :
    EndsStackFault s (withPop s k) := by
  rcases withPop_cases s k with ⟨hf, -⟩ | ⟨-, -, hraise⟩
  · exact absurd (s.popFaults_eq_false_iff.1 hf) h
  · exact hraise ▸ endsStackFault_raise s

/-- SP is at 0x0002 or above when a checked push runs, so it stays below 0xFFFE and the pop that follows runs too. -/
theorem popAllowed_push16 {s : State} (v : Word) (h : pushAllowed s) : popAllowed (s.push16 v) := by
  refine h.imp_right fun ⟨h0, h1⟩ => ?_
  rw [State.push16_sp]
  constructor <;> bv_omega

/-! ### The bytes of a pushed and of a popped word -/

theorem State.readByte_push16_hi (s : State) (v : Word) : ((s.push16 v).readByte s.sp).toNat = v.toNat / 256 := by
  rw [State.readByte_push16, if_neg (Word.sub_one_ne s.sp).symm, if_pos rfl, hiByte_toNat]

theorem State.readByte_push16_lo (s : State) (v : Word) : ((s.push16 v).readByte (s.sp - 1)).toNat = v.toNat % 256 := by
  rw [State.readByte_push16, if_pos rfl, loByte_toNat]

theorem State.pop16_toNat (s : State) :
    s.pop16.1.toNat = (s.readByte (s.sp + 1)).toNat + 256 * (s.readByte (s.sp + 2)).toNat := by
  rw [State.pop16_eq, State.readWord, cat_toNat, Word.add_one_add_one]

theorem State.pop16_push16_sp (s : State) (v : Word) : (s.push16 v).pop16.2.sp = s.sp := by
  rw [State.pop16_sp, State.push16_sp, Word.sub_two_add_two]

/-- Writing another register leaves SP alone. -/
theorem State.sp_setReg16_of_ne (s : State) {r : RegNum} (v : Word) (h : r ≠ .sp) : (s.setReg16 r v).sp = s.sp := by
  rw [State.sp, State.reg16_setReg16, if_neg h.symm, State.sp]

theorem spBytes_eq : spBytes = regBytes16 .sp := by decide

/-- The order in which a frame lists two writes' register bytes does not matter. -/
theorem Frame.append_comm {s t : State} {rs rs' : List RegOff} {as : List Word} (h : Frame s t (rs ++ rs') as) :
    Frame s t (rs' ++ rs) as :=
  ⟨fun o ho => h.1 o fun hmem => ho (List.perm_append_comm.subset hmem), h.2⟩

/-! ### The instructions -/

theorem exec_pushR16_of_allowed {s : State} (r : RegNum) (h : pushAllowed s) :
    exec (.pushR16 r) s = .next (s.push16 (s.reg16 r)) :=
  withPush_of_allowed (s.reg16 r) id h

theorem exec_popR16_of_allowed {s : State} (r : RegNum) (h : popAllowed s) :
    exec (.popR16 r) s = .next (s.pop16.2.setReg16 r s.pop16.1) :=
  withPop_of_allowed (fun v t => t.setReg16 r v) h

/-- Settles O40: the register is read before the push, so PUSH SP is no case of its own. -/
theorem pushEffect : Obligations.PushEffect := by
  intro r s
  refine ⟨fun h => ⟨_, exec_pushR16_of_allowed r h, ?effect⟩, withPush_of_not_allowed _ _, ?encoding⟩
  case effect =>
    exact ⟨s.readByte_push16_hi _, s.readByte_push16_lo _, s.push16_sp _, s.readWord_push16 _, rfl, rfl,
      spBytes_eq ▸ .push16 s _⟩
  case encoding => exact congrArg (· :: []) (regOpcode_eq 0b01010 r)

/-- Settles O41: the register is written after the pop has moved SP, so POP SP keeps the popped word. -/
theorem popEffect : Obligations.PopEffect := by
  intro r s
  refine ⟨fun h => ⟨_, exec_popR16_of_allowed r h, ?effect⟩, withPop_of_not_allowed (fun v t => t.setReg16 r v),
    ?encoding⟩
  case effect =>
    obtain ⟨hreg, hflags, hip, hframe⟩ := setReg16_effect s.pop16.2 r s.pop16.1
    refine ⟨(congrArg BitVec.toNat hreg).trans s.pop16_toNat, fun hr => ?_, hflags, hip, ?_⟩
    · rw [State.sp_setReg16_of_ne _ _ hr, State.pop16_sp]
    · exact spBytes_eq ▸ ((Frame.pop16 s).trans hframe).append_comm
  case encoding => exact congrArg (· :: []) (regOpcode_eq 0b01011 r)

/-- Settles O43: the helper's round trip, which the two instructions make since the pop is allowed where the push is. -/
theorem pushPopRoundTrip : Obligations.PushPopRoundTrip := by
  refine ⟨fun s x => ?helper, fun r q s h => ?instructions⟩
  case helper =>
    rw [State.readByte_pop16, State.readByte_pop16]
    exact ⟨(s.pop16_push16 x).1, s.pop16_push16_sp x, s.readByte_push16_hi x, s.readByte_push16_lo x⟩
  case instructions =>
    have hpop := popAllowed_push16 (s.reg16 r) h
    refine ⟨_, _, exec_pushR16_of_allowed r h, exec_popR16_of_allowed q hpop, ?popped, fun hq => ?spRestored⟩
    case popped => rw [State.reg16_setReg16, if_pos rfl, (s.pop16_push16 _).1]
    case spRestored => rw [State.sp_setReg16_of_ne _ _ hq, State.pop16_push16_sp]

end Sys2Proof.Machine

/-! PROOFS. Control transfer (44_control.md R181 to R189): the short jumps as `jumpIf` on their condition, CALL and RET as
the stack helper with ip written after it, and the step that finds their bytes at ip. -/

namespace Sys2Proof.Machine

open Sys2Proof.Spec

/-! ### The step -/

/-- A running step whose fetch window begins with a well-formed instruction's encoding runs that instruction. -/
theorem step_of_fetchWindow {s : State} {i : Instr} {rest : List Byte} (hwf : i.wf = true) (hrun : s.status = .running)
    (hwin : s.fetchWindow = encode i ++ rest) : step s = exec i (s.pastFetched rest) :=
  step_of_decode hrun (hwin ▸ decode_encode rest hwf)

/-! ### The short jumps -/

/-- Above is not below-or-equal (44_control.md R185, R186). -/
theorem Flags.above_eq (f : Flags) : f.above = !(f.cf || f.zf) := (Bool.not_or f.cf f.zf).symm

/-- A row of the short jumps is `jumpIf` on the row's condition, encoded as the row's opcode and the displacement. -/
theorem shortJumps_rows {i : Byte → Instr} {op : Byte} {cond : Flags → Bool} (h : (i, op, cond) ∈ shortJumps)
    (rel : Byte) :
    (∀ s, exec (i rel) s = jumpIf (cond s.flags) rel s) ∧ (i rel).wf = true ∧ encode (i rel) = [op, rel] := by
  simp only [shortJumps, List.mem_cons, List.not_mem_nil, or_false, Prod.mk.injEq] at h
  rcases h with ⟨rfl, rfl, rfl⟩ | ⟨rfl, rfl, rfl⟩ | ⟨rfl, rfl, rfl⟩ | ⟨rfl, rfl, rfl⟩ | ⟨rfl, rfl, rfl⟩ |
    ⟨rfl, rfl, rfl⟩ | ⟨rfl, rfl, rfl⟩
  iterate 4 exact ⟨fun _ => rfl, rfl, rfl⟩
  · exact ⟨fun s => congrArg (jumpIf · rel s) s.flags.above_eq, rfl, rfl⟩
  iterate 2 exact ⟨fun _ => rfl, rfl, rfl⟩

theorem jumpIf_effect (taken : Bool) (rel : Byte) (s : State) :
    ∃ t, jumpIf taken rel s = .next t ∧ t.ip = (if taken = true then s.ip + sext16 rel else s.ip) ∧
      t.flags = s.flags ∧ Frame s t [] [] := by
  cases taken with
  | false => exact ⟨s, rfl, rfl, rfl, .refl s⟩
  | true => exact ⟨_, rfl, rfl, rfl, (Frame.refl s).setIp _⟩

/-- Settles O50: every row of the short jumps is `jumpIf`, run by the step from ip + 2. -/
theorem shortJumpEffect : Obligations.ShortJumpEffect := by
  intro i op cond hi rel s
  obtain ⟨hexec, hwf, hencode⟩ := shortJumps_rows hi rel
  dsimp only
  rw [← sext16_eq]
  refine ⟨?effect, fun hrun hop hrel => ?step, hencode⟩
  case effect =>
    rw [hexec]
    exact jumpIf_effect _ rel s
  case step =>
    have hwin : s.fetchWindow = encode (i rel) ++ s.fetchWindow.drop 2 := by
      rw [hencode, ← hop, ← hrel]
      rfl
    have hpast : s.pastFetched (s.fetchWindow.drop 2) = s.setIp (s.ip + 2) := rfl
    rw [step_of_fetchWindow hwf hrun hwin, hpast, hexec]
    exact jumpIf_effect _ rel (s.setIp (s.ip + 2))

/-! ### CALL and RET -/

theorem exec_callRel16_of_allowed {s : State} (rel : Word) (h : pushAllowed s) :
    exec (.callRel16 rel) s = .next ((s.push16 s.ip).setIp (s.ip + rel)) :=
  withPush_of_allowed s.ip (fun t => t.setIp (s.ip + rel)) h

theorem exec_ret_of_allowed {s : State} (h : popAllowed s) : exec .ret s = .next (s.pop16.2.setIp s.pop16.1) :=
  withPop_of_allowed (fun v t => t.setIp v) h

/-- Settles O51: ip, already past the CALL when it runs, is the word pushed and the base of the target. -/
theorem callEffect : Obligations.CallEffect := by
  intro rel s
  refine ⟨fun h => ⟨_, exec_callRel16_of_allowed rel h, ?effect⟩,
    withPush_of_not_allowed s.ip fun t => t.setIp (s.ip + rel), fun hrun hop hrel h => ?step, rfl⟩
  case effect =>
    exact ⟨s.readByte_push16_hi _, s.readByte_push16_lo _, s.push16_sp _, rfl, rfl,
      spBytes_eq ▸ (Frame.push16 s _).setIp _⟩
  case step =>
    have hwin : s.fetchWindow = encode (.callRel16 rel) ++ s.fetchWindow.drop 3 := by
      rw [encode, ← hop, ← hrel, State.readWord, loByte_cat, hiByte_cat, Word.add_one_add_one]
      rfl
    have hpast : s.pastFetched (s.fetchWindow.drop 3) = s.setIp (s.ip + 3) := rfl
    have hallowed : pushAllowed (s.setIp (s.ip + 3)) := h
    rw [step_of_fetchWindow rfl hrun hwin, hpast]
    exact ⟨_, exec_callRel16_of_allowed rel hallowed, rfl, State.readWord_push16 _ _, State.push16_sp _ _⟩

/-- Settles O52: the word popped becomes ip, whatever put it there. -/
theorem retEffect : Obligations.RetEffect := by
  intro s
  refine ⟨fun h => ⟨_, exec_ret_of_allowed h, ?effect⟩, withPop_of_not_allowed fun v t => t.setIp v, rfl⟩
  exact ⟨s.pop16_toNat, s.pop16_sp, rfl, spBytes_eq ▸ (Frame.pop16 s).setIp _⟩

/-- Settles O53: the pop that follows the push takes back the word pushed, since CALL's own write of ip moves neither. -/
theorem callThenRetReturns : Obligations.CallThenRetReturns := by
  intro rel s h
  obtain ⟨hword, hregs⟩ := s.pop16_push16 s.ip
  have hpop : popAllowed ((s.push16 s.ip).setIp (s.ip + rel)) := popAllowed_push16 s.ip h
  exact ⟨_, _, exec_callRel16_of_allowed rel h, exec_ret_of_allowed hpop, hword, rfl, hregs⟩

end Sys2Proof.Machine

/-! PROOFS. No-op, set-carry and halt (45_misc.md R200 to R202): what each of the three leaves, and the step that finds its
one byte at ip. -/

namespace Sys2Proof.Machine

/-- A running step that finds the byte of a one-byte instruction at ip runs it from one byte further (30_encoding.md R78). -/
theorem step_of_opcode {s : State} {i : Instr} {op : Byte} (hwf : i.wf = true) (hencode : encode i = [op])
    (hrun : s.status = .running) (hop : s.readByte s.ip = op) : step s = exec i (s.setIp (s.ip + 1)) := by
  have hwin : s.fetchWindow = encode i ++ s.fetchWindow.drop 1 := by
    rw [hencode, ← hop]
    rfl
  have hpast : s.pastFetched (s.fetchWindow.drop 1) = s.setIp (s.ip + 1) := rfl
  rw [step_of_fetchWindow hwf hrun hwin, hpast]

theorem exec_nop (s : State) : exec .nop s = .next s := rfl

theorem exec_stc (s : State) : exec .stc s = .next { s with flags := ⟨true, s.flags.zf, s.flags.sf⟩ } := rfl

theorem exec_hlt (s : State) : exec .hlt s = .next { s with status := .halted } := rfl

/-- Settles O54: the step's effect is the instruction's own, from the state whose ip the opcode fetch has moved. -/
theorem nopStcHltEffect : Obligations.NopStcHltEffect := by
  intro s
  refine ⟨exec_nop s, exec_stc s, exec_hlt s, rfl, rfl, rfl, fun hrun => ?step⟩
  refine ⟨fun hop => ?nop, fun hop => ?stc, fun hop => ?hlt⟩
  case nop => exact (step_of_opcode rfl rfl hrun hop).trans (exec_nop _)
  case stc => exact (step_of_opcode rfl rfl hrun hop).trans (exec_stc _)
  case hlt => exact (step_of_opcode rfl rfl hrun hop).trans (exec_hlt _)

end Sys2Proof.Machine

/-! PROOFS. The terminal conditions (60_exceptions.md R210 to R215): what a running step that ends in one has done, said once,
and that no step leaves one. -/

namespace Sys2Proof.Machine

open Sys2Proof.Spec

/-! ### The machine's own run -/

/-- A run of one step more is the step, and the run from the state it answers. -/
theorem run_succ_of_step {s t : State} (n : Nat) (h : step s = .next t) :
    Sys2Proof.core.run (n + 1) s = Sys2Proof.core.run n t := by
  have hstep : Sys2Proof.core.step s = .next t := h
  simp only [Host.Core.run, hstep]

/-- Settles O13, by induction on the number of steps, each of which answers the same state. -/
theorem terminalStatusIsPermanent : Obligations.TerminalStatusIsPermanent := by
  intro s hterm
  refine ⟨step_of_terminal hterm, fun n => ?_⟩
  induction n with
  | zero => rfl
  | succ n ih => rw [run_succ_of_step n (step_of_terminal hterm), ih]

/-! ### A running step that ends in a terminal condition -/

/-- A condition that leaves ip specified leaves it where the fetch has put it (60_exceptions.md R211, R215). -/
theorem State.raise_ip (s : State) {c : Status} (h : c.leavesIpOpen = false) : (s.raise c).ip = s.ip := by
  cases c with
  | running | halted | unsupported => rfl
  | aborted | stackFault => cases h

/-- From `s` to `t` one terminal condition has been raised and nothing else has happened but the fetch, which has moved ip
past one byte if the condition leaves ip specified; a stack fault is one of `P_STACK_WRAP = Fault` (60_exceptions.md R213). -/
def OnlyRaises (s t : State) : Prop :=
  ∃ ip c, t = (s.setIp ip).raise c ∧ (c.leavesIpOpen = false → ip = s.ip + 1) ∧
    (c = .stackFault → s.params.stackWrap = .fault)

/-- HLT is one byte long, so decoding it takes one byte of the fetch window (45_misc.md R202). -/
theorem State.pastFetched_hlt {s : State} {rest : List Byte} (hd : decode s.fetchWindow = .ok (.hlt, rest)) :
    s.pastFetched rest = s.setIp (s.ip + 1) := by
  obtain ⟨-, hwin⟩ := encodeInvertsDecode _ _ _ hd
  obtain rfl : s.fetchWindow.drop 1 = rest := congrArg (List.drop 1) hwin
  rfl

/-- An instruction that does not complete has raised its condition and done nothing else. -/
theorem Outcomes.onlyRaises {i : Instr} {rest : List Byte} {s t : State} (h : Outcomes i (s.pastFetched rest) t)
    (hrun : s.status = .running) (hd : decode s.fetchWindow = .ok (i, rest)) (hterm : t.status ≠ .running) :
    OnlyRaises s t := by
  cases h with
  | completes h =>
    obtain ⟨hstatus, -⟩ := h
    exact absurd (hstatus.trans hrun) hterm
  | badMode => exact ⟨_, _, rfl, nofun, nofun⟩
  | stackFault _ hp => exact ⟨_, _, rfl, nofun, fun _ => hp⟩
  | halts hi =>
    subst hi
    rw [State.pastFetched_hlt hd]
    exact ⟨_, _, rfl, fun _ => rfl, nofun⟩

/-- Bytes that are no instruction raise the condition of their error, and nothing else happens. -/
theorem onlyRaises_of_rejectFetched {e : DecodeError} {s t : State} (h : s.rejectFetched e = .next t) : OnlyRaises s t := by
  cases e with
  | unsupportedOpcode op =>
    cases h
    exact ⟨_, _, rfl, fun _ => rfl, nofun⟩
  | badAddressingMode m =>
    cases h
    exact ⟨s.ip, _, rfl, nofun, nofun⟩
  | badSubOpcode op reg =>
    cases h
    exact ⟨s.ip, _, rfl, nofun, nofun⟩
  | truncated => cases h

/-- Everything a running step that ends in a terminal status can have done. -/
theorem onlyRaises_of_step {s t : State} (hrun : s.status = .running) (h : step s = .next t)
    (hterm : t.status ≠ .running) : OnlyRaises s t := by
  rcases step_cases s with ⟨hs, -⟩ | ⟨i, rest, -, hd, hstep⟩ | ⟨e, -, -, hstep⟩
  · exact absurd hrun hs
  · obtain ⟨u, hu, hout⟩ := exec_cases i (s.pastFetched rest)
    cases (hstep.trans hu).symm.trans h
    exact hout.onlyRaises hrun hd hterm
  · exact onlyRaises_of_rejectFetched (hstep.symm.trans h)

/-- Settles O14: raising a condition writes no data, and ip stays past the one byte where the condition specifies it. -/
theorem terminalConditionsArePrecise : Obligations.TerminalConditionsArePrecise := by
  intro s t hrun h hterm
  obtain ⟨ip, c, rfl, hip, -⟩ := onlyRaises_of_step hrun h hterm
  rw [State.raise_status]
  exact ⟨.raise (s.setIp ip) c, fun hc => (State.raise_ip _ hc).trans (hip hc)⟩

/-- Settles O9: a byte of the list is one the decoder rejects by name, whatever follows it. -/
theorem unsupportedOpcodeStopsTheStep : Obligations.UnsupportedOpcodeStopsTheStep := by
  intro s hrun hop
  obtain ⟨hbytes, -⟩ := unsupportedOpcodeBytes
  rw [step_of_error hrun ((hbytes _ _).2 hop)]
  exact ⟨_, rfl, rfl, rfl, .raise (s.setIp (s.ip + 1)) _, rfl, rfl⟩

/-! ### The stack fault -/

/-- Under `Fault` the check does not pass at the two values of SP it names; the pair is the push's or the pop's. -/
theorem not_allowed_of_fault {s : State} {a b : Word} (hp : s.params.stackWrap = .fault) (hsp : s.sp = a ∨ s.sp = b) :
    ¬ (s.params.stackWrap = .wrap ∨ (s.sp ≠ a ∧ s.sp ≠ b)) := by
  rintro (hwrap | ⟨ha, hb⟩)
  · cases hp.symm.trans hwrap
  · exact hsp.elim ha hb

/-- Settles O42: the check comes before the instruction's own effect, and passes at every SP under `Wrap`. -/
theorem stackWrapFaults : Obligations.StackWrapFaults := by
  refine ⟨fun s r rel hp => ⟨fun hsp => ?push, fun hsp => ?pop⟩, fun s t hrun hp h hstatus => ?wrap⟩
  case push =>
    have hnot : ¬ pushAllowed s := not_allowed_of_fault hp hsp
    exact ⟨withPush_of_not_allowed _ id hnot, withPush_of_not_allowed s.ip (fun t => t.setIp (s.ip + rel)) hnot⟩
  case pop =>
    have hnot : ¬ popAllowed s := not_allowed_of_fault hp hsp
    exact ⟨withPop_of_not_allowed (fun v t => t.setReg16 r v) hnot, withPop_of_not_allowed (fun v t => t.setIp v) hnot⟩
  case wrap =>
    obtain ⟨ip, c, rfl, -, hfault⟩ := onlyRaises_of_step hrun h (hstatus ▸ nofun)
    rw [State.raise_status] at hstatus
    cases hp.symm.trans (hfault hstatus)

end Sys2Proof.Machine

/-! PROOFS. The free values are never read (60_exceptions.md R212 to R214): only `State.raise` reads the draw counter, and
what it draws goes into an ip that no later step fetches from. -/

namespace Sys2Proof.Machine

/-- Two states agree on everything the spec fixes: memory, registers, flags, status and parameters, and ip unless the status
leaves it unspecified (70_reset_and_hazards.md R252). -/
def AgreeOnFixed (s t : State) : Prop :=
  t.mem = s.mem ∧ t.rb = s.rb ∧ t.flags = s.flags ∧ t.status = s.status ∧ t.params = s.params ∧
    (s.status.leavesIpOpen = false → t.ip = s.ip)

/-- Both outcomes are next states, and these agree. -/
def EndsAgreeing (o o' : Outcome) : Prop :=
  ∃ t t', o = .next t ∧ o' = .next t' ∧ AgreeOnFixed t t'

/-- The state with another count of free values drawn. -/
def State.withDraws (s : State) (d : Nat) : State := { s with draws := d }

theorem AgreeOnFixed.withDraws (s : State) (d : Nat) : AgreeOnFixed s (s.withDraws d) :=
  ⟨rfl, rfl, rfl, rfl, rfl, fun _ => rfl⟩

/-- States that agree while they run differ in the draw counter alone. -/
theorem AgreeOnFixed.eq_withDraws {s s' : State} (h : AgreeOnFixed s s') (hrun : s.status = .running) :
    s' = s.withDraws s'.draws := by
  obtain ⟨hmem, hrb, hflags, hstatus, hparams, hip⟩ := h
  have hip := hip (hrun ▸ rfl)
  cases s'
  subst hmem hrb hflags hstatus hparams hip
  rfl

/-- The one place where the counter is read: the ip it gives is one that the status raised leaves unspecified. -/
theorem AgreeOnFixed.raise_withDraws (s : State) (d : Nat) (c : Status) :
    AgreeOnFixed (s.raise c) ((s.withDraws d).raise c) := by
  cases c with
  | running | halted | unsupported => exact .withDraws _ d
  | aborted | stackFault => exact ⟨rfl, rfl, rfl, rfl, rfl, nofun⟩

theorem resolve_withDraws (rm : RM) (s : State) (d : Nat) : resolve rm (s.withDraws d) = resolve rm s := by
  cases rm <;> rfl

namespace EndsAgreeing

variable {s : State} {d : Nat}

theorem next (t : State) : EndsAgreeing (.next t) (.next (t.withDraws d)) :=
  ⟨_, _, rfl, rfl, .withDraws t d⟩

theorem raise (c : Status) : EndsAgreeing (.next (s.raise c)) (.next ((s.withDraws d).raise c)) :=
  ⟨_, _, rfl, rfl, .raise_withDraws s d c⟩

/-- An operand form whose effect does not read the counter, on a register and on a memory operand. -/
theorem operand {reg : RegNum} {rm : RM} {k k' : Ref → State} (hreg : ∀ o, k' (.reg o) = (k (.reg o)).withDraws d)
    (hmem : ∀ a, k' (.mem a) = (k (.mem a)).withDraws d) :
    EndsAgreeing (withOperand reg rm s k) (withOperand reg rm (s.withDraws d) k') := by
  rcases withOperand_cases reg rm s k with ⟨ref, href, h⟩ | ⟨hu, h⟩
  · rw [h, withOperand_some reg k' ((resolve_withDraws rm s d).trans href)]
    cases ref with
    | reg o => exact hreg o ▸ next _
    | mem a => exact hmem a ▸ next _
  · rw [h, withOperand_undefined reg _ k' hu]
    exact raise _

theorem push {v : Word} {k : State → State} (hk : ∀ u, k (u.withDraws d) = (k u).withDraws d) :
    EndsAgreeing (withPush s v k) (withPush (s.withDraws d) v k) := by
  have hfaults : (s.withDraws d).pushFaults = s.pushFaults := rfl
  have hpush : (s.withDraws d).push16 v = (s.push16 v).withDraws d := rfl
  rw [withPush, withPush, hfaults, hpush, hk]
  split
  · exact raise _
  · exact next _

theorem pop {k : Word → State → State} (hk : ∀ v u, k v (u.withDraws d) = (k v u).withDraws d) :
    EndsAgreeing (withPop s k) (withPop (s.withDraws d) k) := by
  have hfaults : (s.withDraws d).popFaults = s.popFaults := rfl
  have hpop : (s.withDraws d).pop16 = (s.pop16.1, s.pop16.2.withDraws d) := rfl
  rw [withPop, withPop, hfaults, hpop, hk]
  split
  · exact raise _
  · exact next _

theorem jump (taken : Bool) (rel : Byte) : EndsAgreeing (jumpIf taken rel s) (jumpIf taken rel (s.withDraws d)) := by
  cases taken <;> exact next _

theorem exec (i : Instr) : EndsAgreeing (exec i s) (exec i (s.withDraws d)) := by
  cases i
  case pushR16 r => exact push (k := id) fun _ => rfl
  case callRel16 rel => exact push (k := fun u => u.setIp (s.ip + rel)) fun _ => rfl
  case popR16 r => exact pop (k := fun v u => u.setReg16 r v) fun _ _ => rfl
  case ret => exact pop (k := fun v u => u.setIp v) fun _ _ => rfl
  case jbRel8 | jzRel8 | jnzRel8 | jbeRel8 | jaRel8 | jnsRel8 | jmpRel8 => exact jump _ _
  case movR8Ib | movR16Iw | xchgAxCx | xchgAxDx | xchgAxBx | xchgAxSp | xchgAxBp | xchgAxSi | xchgAxDi | incR16 | decR16 |
      nop | stc =>
    exact next _
  case hlt => exact raise .halted
  all_goals exact operand (fun _ => rfl) fun _ => rfl

theorem rejectFetched {e : DecodeError} (he : e ≠ .truncated) :
    EndsAgreeing (s.rejectFetched e) ((s.withDraws d).rejectFetched e) := by
  cases e with
  | unsupportedOpcode op => exact raise (s := s.setIp (s.ip + 1)) _
  | badAddressingMode m => exact raise _
  | badSubOpcode op reg => exact raise _
  | truncated => exact absurd rfl he

/-- Running states that agree fetch and decode the same bytes; a state of any other status steps to itself. -/
theorem step {s' : State} (h : AgreeOnFixed s s') : EndsAgreeing (step s) (step s') := by
  rcases step_cases s with ⟨hterm, hs⟩ | ⟨i, rest, hrun, hd, hs⟩ | ⟨e, hrun, hd, hs⟩
  · have ⟨_, _, _, hstatus, _⟩ := h
    exact ⟨s, s', hs, step_of_terminal (hstatus ▸ hterm), h⟩
  · rw [hs, h.eq_withDraws hrun, step_of_decode (s := s.withDraws s'.draws) hrun hd]
    exact exec (s := s.pastFetched rest) i
  · have he : e ≠ .truncated := fun he => s.decode_fetchWindow_ne_truncated (he ▸ hd)
    rw [hs, h.eq_withDraws hrun, step_of_error (s := s.withDraws s'.draws) hrun hd]
    exact rejectFetched he

end EndsAgreeing

/-- Settles O20, by induction on the number of steps, each of which keeps the agreement. -/
theorem freeValuesAreNeverRead : Obligations.FreeValuesAreNeverRead := by
  intro n
  induction n with
  | zero => exact fun s s' h => ⟨s, s', rfl, rfl, h⟩
  | succ n ih =>
    intro s s' h
    obtain ⟨t, t', ht, ht', hagree⟩ := EndsAgreeing.step h
    rw [run_succ_of_step n ht, run_succ_of_step n ht']
    exact ih t t' hagree

end Sys2Proof.Machine

/-! PROOFS. The host's port (70_reset_and_hazards.md R241 to R245): what `load` leaves in memory, how `runCounted` goes from
one step to the next, and the display window. -/

namespace Sys2Proof.Machine

open Sys2Proof.Spec

/-! ### Load -/

theorem Word.toNat_sub_eq_succ {a b : Word} (h : b ≠ a) : (b - a).toNat = (b - (a + 1)).toNat + 1 := by
  bv_omega

/-- An address reads the byte placed at its distance from the start, or as before. No more than 65536 bytes: of more, the
later ones would overwrite the first. -/
theorem State.readByte_placeBytes (s : State) (a b : Word) {bs : List Byte} (hlen : bs.length ≤ 65536) :
    (s.placeBytes a bs).readByte b = bs[(b - a).toNat]?.getD (s.readByte b) := by
  induction bs generalizing s a with
  | nil => rfl
  | cons v bs ih =>
    rw [List.length_cons] at hlen
    rw [State.placeBytes, ih _ _ (by omega), State.readByte_writeByte]
    by_cases hb : b = a
    · subst hb
      have hlast : bs[(b - (b + 1)).toNat]? = none := List.getElem?_eq_none (by bv_omega)
      rw [hlast, if_pos rfl, BitVec.sub_self]
      rfl
    · rw [if_neg hb, Word.toNat_sub_eq_succ hb, List.getElem?_cons_succ]

/-- Placing bytes writes memory only. -/
theorem State.placeBytes_eq_setMem (s : State) (a : Word) (bs : List Byte) :
    s.placeBytes a bs = { s with mem := (s.placeBytes a bs).mem } := by
  induction bs generalizing s a with
  | nil => rfl
  | cons v bs ih => exact ih (s.writeByte a v) (a + 1)

theorem State.load_eq_setMem (s : State) (image : List Byte) : s.load image = { s with mem := (s.load image).mem } :=
  s.placeBytes_eq_setMem 0 _

@[simp] theorem State.load_rb (s : State) (image : List Byte) : (s.load image).rb = s.rb := by rw [State.load_eq_setMem]
@[simp] theorem State.load_flags (s : State) (image : List Byte) : (s.load image).flags = s.flags := by rw [State.load_eq_setMem]
@[simp] theorem State.load_ip (s : State) (image : List Byte) : (s.load image).ip = s.ip := by rw [State.load_eq_setMem]
@[simp] theorem State.load_status (s : State) (image : List Byte) : (s.load image).status = s.status := by rw [State.load_eq_setMem]

/-- The truncation drops no byte that has an address. -/
theorem State.readByte_load (s : State) (image : List Byte) (a : Word) :
    (s.load image).readByte a = image[a.toNat]?.getD (s.readByte a) := by
  rw [State.load, State.readByte_placeBytes _ _ _ (List.length_take_le 65536 image), show a - 0 = a from BitVec.sub_zero a,
    List.getElem?_take_of_lt a.isLt]

/-- Settles O55: after an empty image the bytes at ip are `00 00`, an opcode and an undefined (mode, rm) pair. -/
theorem loadPlacesTheImage : Obligations.LoadPlacesTheImage := by
  refine ⟨fun s image a => ⟨?inside, s.load_rb image, s.load_flags image, s.load_ip image, s.load_status image⟩,
    fun p g image a hout => ?outside, fun p g => ?empty⟩
  case inside => rw [State.readByte_load, List.getD_getElem?]
  case outside =>
    rw [State.readByte_load, List.getElem?_eq_none hout]
    rfl
  case empty =>
    have hillegal : ¬ legalModRM 0x00 := by
      rw [legalModRM_iff_definedMode]
      decide
    obtain ⟨t, ht, hstatus, -⟩ :=
      undefinedAddressingModeStopsTheStep ((State.resetWith p g).load []) rfl (by decide : hasModRM 0x00 = true) hillegal
    exact ⟨t, ht, hstatus⟩

/-- Where ip is 0, the first step after the load runs the instruction that the image begins with. -/
theorem step_load_of_encode {s : State} {i : Instr} {image rest : List Byte} (hwf : i.wf = true)
    (hrun : s.status = .running) (hip : s.ip = 0) (himage : image = encode i ++ rest) :
    step (s.load image) = exec i ((s.load image).setIp (BitVec.ofNat 16 (encode i).length)) := by
  have ⟨_, hlen⟩ := Laws.EncodedLength.holds i
  have haddr (n : Nat) : (s.load image).ip + BitVec.ofNat 16 n = BitVec.ofNat 16 n := by
    rw [State.load_ip, hip]
    exact BitVec.zero_add _
  have hbytes (n : Nat) (hn : n < (encode i).length) :
      (s.load image).readByte ((s.load image).ip + BitVec.ofNat 16 n) = (encode i)[n] := by
    have htoNat : (BitVec.ofNat 16 n).toNat = n := Nat.mod_eq_of_lt (by omega)
    rw [haddr, State.readByte_load, htoNat, himage, List.getElem?_append_left hn, List.getElem?_eq_getElem hn,
      Option.getD_some]
  rw [stepRunsTheInstructionInMemory _ i hwf ((s.load_status image).trans hrun) hbytes, haddr]

/-! ### Counting steps -/

theorem runCounted_of_terminal (fuel : Nat) {s : State} (h : s.status ≠ .running) : runCounted fuel s = (s, 0) := by
  cases fuel with
  | zero => rfl
  | succ fuel => rw [runCounted, if_neg h]

theorem runCounted_of_step (fuel : Nat) {s t : State} (hrun : s.status = .running) (h : step s = .next t) :
    runCounted (fuel + 1) s = ((runCounted fuel t).1, (runCounted fuel t).2 + 1) := by
  rw [runCounted, if_pos hrun, h]

/-- The step that ends the run counts, and it is the last one that does. -/
theorem runCounted_of_last_step (fuel : Nat) {s t : State} (hrun : s.status = .running) (h : step s = .next t)
    (hterm : t.status ≠ .running) : runCounted (fuel + 1) s = (t, 1) := by
  rw [runCounted_of_step fuel hrun h, runCounted_of_terminal fuel hterm]

/-- `B8 05 00 F4` is MOV AX, 0x0005 and HLT: after the load its run is two steps long and ends halted. -/
theorem runCounted_mov_hlt (fuel : Nat) {s : State} (hrun : s.status = .running) (hip : s.ip = 0) :
    (runCounted (fuel + 2) (s.load [0xB8, 0x05, 0x00, 0xF4])).2 = 2 ∧
      (runCounted (fuel + 2) (s.load [0xB8, 0x05, 0x00, 0xF4])).1.status = .halted := by
  have hstart : (s.load [0xB8, 0x05, 0x00, 0xF4]).status = .running := (s.load_status _).trans hrun
  have hmov := step_load_of_encode (i := .movR16Iw .ax 0x0005) (rest := [0xF4]) rfl hrun hip rfl
  obtain ⟨-, ⟨u, hu, -, -, huip, -, hmem, hustatus, -⟩, -⟩ :=
    movRegImmEffect .ax 0x00 0x0005 ((s.load [0xB8, 0x05, 0x00, 0xF4]).setIp 3)
  have hop : u.readByte u.ip = 0xF4 := by
    rw [huip, hmem _ List.not_mem_nil]
    exact State.readByte_load s _ 3
  have hrunning : u.status = .running := hustatus.trans hstart
  have hhlt := (step_of_opcode rfl rfl hrunning hop).trans (exec_hlt _)
  rw [runCounted_of_step (fuel + 1) hstart (hmov.trans hu), runCounted_of_last_step fuel hrunning hhlt nofun]
  exact ⟨rfl, rfl⟩

/-- `F1` is an unsupported opcode: after the load its run is one step long. -/
theorem runCounted_unsupported (fuel : Nat) {s : State} (hrun : s.status = .running) (hip : s.ip = 0) :
    (runCounted (fuel + 1) (s.load [0xF1])).2 = 1 := by
  have hstart : (s.load [0xF1]).status = .running := (s.load_status _).trans hrun
  have hop : (s.load [0xF1]).readByte (s.load [0xF1]).ip = 0xF1 := by
    rw [State.readByte_load, State.load_ip, hip]
    rfl
  have hmem : (s.load [0xF1]).readByte (s.load [0xF1]).ip ∈ unsupportedOpcodes := by
    rw [hop]
    decide
  obtain ⟨t, ht, hstatus, -⟩ := unsupportedOpcodeStopsTheStep _ hstart hmem
  rw [runCounted_of_last_step fuel hstart ht (hstatus ▸ nofun)]

/-- Settles O57: the rules of the recursion, and its two examples from the reset state. -/
theorem stepCountEndsWithTheTerminalStep : Obligations.StepCountEndsWithTheTerminalStep := by
  refine ⟨fun fuel s h => runCounted_of_terminal fuel h, fun fuel s t hrun h => runCounted_of_step fuel hrun h,
    fun p g fuel => ?_⟩
  obtain ⟨hcount, hstatus⟩ := runCounted_mov_hlt fuel (s := State.resetWith p g) rfl rfl
  exact ⟨hcount, hstatus, runCounted_unsupported fuel rfl rfl⟩

/-! ### The display window -/

theorem State.displayLines_length (displayChar : Byte → Char) (s : State) : (s.displayLines displayChar).length = 25 := by
  simp [State.displayLines]

theorem State.displayLines_row (displayChar : Byte → Char) (s : State) {row : Nat} (h : row < 25) :
    (s.displayLines displayChar)[row]? = some ((List.range 80).map fun col => s.displayCell displayChar row col) := by
  rw [State.displayLines, List.getElem?_map, List.getElem?_range h, Option.map_some]

/-- Settles O56: the status selects the output, and the cell of a row and column is the one `displayCell` renders. -/
theorem completionOutputIsTheWindow : Obligations.CompletionOutputIsTheWindow := by
  refine fun displayChar s => ⟨fun hgraceful => ?window, fun habnormal => ?none⟩
  case window =>
    refine ⟨s.displayLines displayChar, ?_, s.displayLines_length displayChar, fun row col hrow hcol =>
      ⟨_, s.displayLines_row displayChar hrow, by simp, ?_⟩⟩
    · rcases hgraceful with h | ⟨b, h⟩ <;> simp only [State.completionOutput, h]
    · rw [List.getElem?_map, List.getElem?_range hcol]
      rfl
  case none =>
    rcases habnormal with h | ⟨info, h⟩ <;> simp only [State.completionOutput, h]

end Sys2Proof.Machine
